-- ==== Sys2Proof/Config.lean ====
section
/-!
DEFINITION. Config.lean: what the spec leaves OPEN (00_scope.md rule R8). Each parameter is a constant with no body:
nothing in Lean can evaluate it, so no proof rests on a value of it; only the bounds of rule R8 are known.
-/

namespace Sys2Proof.Config

/-- How far IN_W lies above its least value 9 (rule R8; log 2). -/
opaque inWExtra : Nat

/-- IN_W, the width in bits of each of the four host integers; OPEN, at least 9 (rule R8). -/
def inW : Nat := 9 + inWExtra

/-- How far CNT_W lies above its least value 3 (rule R8; log 2). -/
opaque cntWExtra : Nat

/-- CNT_W, the width in bits of the byte count the device returns for a write; OPEN, at least 3 (rule R8). -/
def cntW : Nat := 3 + cntWExtra

/-- T_READ_INTERVAL_MS, the read-interval timeout the block programs; OPEN, no value given (rules R8, R32; log 3). -/
opaque tReadIntervalMs : Nat

/-- DEV_PREFIX, the platform's device path prefix; OPEN, no value given (rules R8, R59; log 3). -/
opaque devPrefix : String

end Sys2Proof.Config
end

