-- ==== Sys2Proof/Word.lean ====
section
/-!
DEFINITION. Word.lean: the words of the block: a byte (00_scope.md rule R9), a host integer of IN_W bits and a write
count of CNT_W bits (rule R8).
-/

namespace Sys2Proof

/-- A byte, an unsigned value 0 to 255 (rule R9). -/
abbrev Byte := BitVec 8

/-- A host integer: IN_W bits, two's complement (rules R8, R21). -/
abbrev HostInt := BitVec Config.inW

/-- A count of bytes written: CNT_W bits, unsigned (rules R8, R37). -/
abbrev Count := BitVec Config.cntW

end Sys2Proof
end

