-- ==== Sys2Proof/Syntax.lean ====
section
/-!
DEFINITION. Syntax.lean: the packet as seven bytes, the four formats of spec/opcode_table.json, and the ONE inductive of
instructions: a constructor for every row of the table.
-/

namespace Sys2Proof

/-- Seven bytes in index order, index 0 first on the wire (30_encoding.md rule R70, 20_memory.md rule R51). -/
structure Packet where
  b0 : Byte
  b1 : Byte
  b2 : Byte
  b3 : Byte
  b4 : Byte
  b5 : Byte
  b6 : Byte
  deriving DecidableEq, Repr

/-- The formats of the opcode table. Each is a code space of its own (30_encoding.md rules R70, R84, R87, R82). -/
inductive Format where
  /-- the 7-byte packet, 56 bits -/
  | pkt7
  /-- the micro-program counter's 4 bits -/
  | upc4
  /-- the encoder's lane select, 3 bits -/
  | lane3
  /-- the device request port's operation, 3 bits -/
  | devop3
  deriving DecidableEq, Repr

/-- The instructions: one constructor per row of spec/opcode_table.json. -/
inductive Instr where
  /-- CALL_PRESET: camera address a, preset p, checksum c (rules R70, R71, R100) -/
  | callPreset (a p c : Byte)
  /-- START, the IDLE step (rule R120) -/
  | start
  /-- ENCODE (rule R100) -/
  | encode
  /-- OPEN (rule R121) -/
  | openPort
  /-- CFG_GET (rule R123) -/
  | cfgGet
  /-- CFG_SET (rule R124) -/
  | cfgSet
  /-- CFG_TMO (rule R125) -/
  | cfgTmo
  /-- SEND (rule R126) -/
  | send
  /-- VERIFY (rule R127) -/
  | verify
  /-- FINALIZE (rule R128) -/
  | finalize
  /-- CLOSE (rule R129) -/
  | close
  /-- HALT (rule R130) -/
  | halt
  /-- LANE_SYNC (rule R101) -/
  | laneSync
  /-- LANE_ADDR (rule R102) -/
  | laneAddr
  /-- LANE_CMD1 (rule R103) -/
  | laneCmd1
  /-- LANE_CMD2 (rule R104) -/
  | laneCmd2
  /-- LANE_DATA1 (rule R105) -/
  | laneData1
  /-- LANE_DATA2 (rule R106) -/
  | laneData2
  /-- LANE_CHK (rule R107) -/
  | laneChk
  /-- DEV_OPEN (rule R186) -/
  | devOpen
  /-- DEV_GETSTATE (rule R187) -/
  | devGetState
  /-- DEV_SETSTATE (rule R187) -/
  | devSetState
  /-- DEV_SETTIMEOUTS (rule R188) -/
  | devSetTimeouts
  /-- DEV_WRITE (rule R189) -/
  | devWrite
  /-- DEV_FLUSH (rule R191) -/
  | devFlush
  /-- DEV_CLOSE (rule R192) -/
  | devClose
  deriving DecidableEq, Repr

end Sys2Proof
end

