-- ==== Sys2Proof/Machine/Operands.lean ====
section
/-!
DEFINITION. Machine/Operands.lean: the operand forms of the encoder: the constants of 00_scope.md rule R7, truncation and
the modular sum (rule R10), and the data mux that gives each packet byte its source (30_encoding.md rule R72).
-/

namespace Sys2Proof.Machine

/-- PKT_LEN (rule R7). -/
def pktLen : Nat := 7
/-- EXPECTED_COUNT, what the verification compares against (rule R7). -/
def expectedCount : Nat := 7
/-- SYNC, byte 0 (rule R7). -/
def syncByte : Byte := 0xFF#8
/-- CMD1, byte 2 (rule R7). -/
def cmd1Byte : Byte := 0x00#8
/-- CMD2, byte 3, the call preset command constant (rule R7). -/
def cmd2Byte : Byte := 0x07#8
/-- DATA1, byte 4 (rule R7). -/
def data1Byte : Byte := 0x00#8

/-- trunc8: the low 8 bits of a host integer, its non-negative residue modulo 256 (rules R10, R73). -/
def trunc8 (v : HostInt) : Byte := BitVec.ofNat 8 v.toNat

/-- sum8: the integer sum of the bytes, reduced modulo 256 at the end (rules R10, R110). -/
def sum8 (bs : List Byte) : Byte := BitVec.ofNat 8 (bs.map BitVec.toNat).sum

/-- The checksum of a packet: bytes 1 to 5, not byte 0 and not byte 6 (30_encoding.md rule R74, 90_conflicts.md C1). -/
def checksum (k : Packet) : Byte := sum8 [k.b1, k.b2, k.b3, k.b4, k.b5]

/-- The data mux: the source of packet byte `i` when CAM is `a` and PRESET is `p` (40_encoder.md rule R108). -/
def lane (a p : Byte) (i : Fin 7) : Byte :=
  match i with
  | 0 => syncByte
  | 1 => a
  | 2 => cmd1Byte
  | 3 => cmd2Byte
  | 4 => data1Byte
  | 5 => p
  | 6 => sum8 [a, cmd1Byte, cmd2Byte, data1Byte, p]

/-- The packet of camera address `a` and preset `p`: every byte from its lane (rules R100, R108). -/
def encodePacket (a p : Byte) : Packet :=
  ⟨lane a p 0, lane a p 1, lane a p 2, lane a p 3, lane a p 4, lane a p 5, lane a p 6⟩

/-- The bytes of a packet in wire order (20_memory.md rule R51). -/
def packetBytes (k : Packet) : List Byte := [k.b0, k.b1, k.b2, k.b3, k.b4, k.b5, k.b6]

/-- A packet as the 56-bit number whose most significant byte is index 0 (30_encoding.md rule R71). -/
def packetWord (k : Packet) : BitVec 56 :=
  k.b0 ++ (k.b1 ++ (k.b2 ++ (k.b3 ++ (k.b4 ++ (k.b5 ++ k.b6)))))

/-- The packet a 56-bit number stands for, index 0 in bits 55:48 (rules R71, R159, R160). -/
def packetOfWord (w : BitVec 56) : Packet :=
  ⟨w.extractLsb' 48 8, w.extractLsb' 40 8, w.extractLsb' 32 8, w.extractLsb' 24 8, w.extractLsb' 16 8,
    w.extractLsb' 8 8, w.extractLsb' 0 8⟩

end Sys2Proof.Machine
end

