-- ==== Sys2Proof/WellFormed.lean ====
section
/-!
DEFINITION. WellFormed.lean: when seven bytes are a call-preset packet (30_encoding.md rule R75), and when an instruction is
well formed: CALL_PRESET's field c is not free, it is fixed by a and p (rule R71).
-/

namespace Sys2Proof

/-- The well-formed call-preset packets of rule R75: four constant bytes and the checksum clause. -/
def Packet.wellFormed (k : Packet) : Bool :=
  k.b0 == Machine.syncByte && k.b2 == Machine.cmd1Byte && k.b3 == Machine.cmd2Byte && k.b4 == Machine.data1Byte
    && k.b6 == Machine.checksum k

/-- The checksum byte a call-preset packet with operands a and p must carry (rules R71, R74). -/
def Instr.checksumOf (a p : Byte) : Byte := Machine.checksum (Machine.encodePacket a p)

/-- An instruction is well formed when its fields meet the table's constraints; only CALL_PRESET has one. -/
def Instr.wellFormed : Instr → Bool
  | .callPreset a p c => c == Instr.checksumOf a p
  | .start => true
  | .encode => true
  | .openPort => true
  | .cfgGet => true
  | .cfgSet => true
  | .cfgTmo => true
  | .send => true
  | .verify => true
  | .finalize => true
  | .close => true
  | .halt => true
  | .laneSync => true
  | .laneAddr => true
  | .laneCmd1 => true
  | .laneCmd2 => true
  | .laneData1 => true
  | .laneData2 => true
  | .laneChk => true
  | .devOpen => true
  | .devGetState => true
  | .devSetState => true
  | .devSetTimeouts => true
  | .devWrite => true
  | .devFlush => true
  | .devClose => true

end Sys2Proof
end

