-- ==== Sys2Proof/Decode.lean ====
section
/-!
DEFINITION. Decode.lean: the decoder of each format of the opcode table, total on any bits and rejecting by name, and
after it the encoder, written from the same tables (30_encoding.md rules R70, R71, R82, R84, R87).
-/

namespace Sys2Proof

/-- Why bits are no instruction. -/
inductive Reject where
  /-- not as many bytes as the format has -/
  | wrongLength
  /-- bits set above the format's width -/
  | tooWide
  /-- byte 0 is not the sync byte (rule R75) -/
  | badSync
  /-- byte 2 is not the first command byte (rules R75, R78) -/
  | badCmd1
  /-- byte 3 is not the call preset constant (rules R75, R78) -/
  | badCmd2
  /-- byte 4 is not zero (rules R75, R78) -/
  | badData1
  /-- byte 6 is not the checksum of bytes 1 to 5 (rule R75) -/
  | badChecksum
  /-- UPC codes 11 to 15 select no micro-operation (rule R86) -/
  | noMicroOp
  /-- lane select 7 selects nothing (rule R87) -/
  | noLane
  /-- device transaction codes from 7 on are never issued (rule R82) -/
  | noTransaction
  deriving DecidableEq, Repr

/-- The micro-operation a UPC code selects (rule R84). -/
def decodeUpc (c : BitVec 4) : Except Reject Instr :=
  match c.toNat with
  | 0 => .ok .start
  | 1 => .ok .encode
  | 2 => .ok .openPort
  | 3 => .ok .cfgGet
  | 4 => .ok .cfgSet
  | 5 => .ok .cfgTmo
  | 6 => .ok .send
  | 7 => .ok .verify
  | 8 => .ok .finalize
  | 9 => .ok .close
  | 10 => .ok .halt
  | _ => .error .noMicroOp

/-- The lane a lane select fires: the byte index itself (rule R87). -/
def decodeLane (c : BitVec 3) : Except Reject Instr :=
  match c.toNat with
  | 0 => .ok .laneSync
  | 1 => .ok .laneAddr
  | 2 => .ok .laneCmd1
  | 3 => .ok .laneCmd2
  | 4 => .ok .laneData1
  | 5 => .ok .laneData2
  | 6 => .ok .laneChk
  | _ => .error .noLane

/-- The device transaction a request code names (rule R82). -/
def decodeDevOp (c : BitVec 3) : Except Reject Instr :=
  match c.toNat with
  | 0 => .ok .devOpen
  | 1 => .ok .devGetState
  | 2 => .ok .devSetState
  | 3 => .ok .devSetTimeouts
  | 4 => .ok .devWrite
  | 5 => .ok .devFlush
  | 6 => .ok .devClose
  | _ => .error .noTransaction

/-- Seven bytes as a packet of the one wire format: the constant bytes and the checksum are checked (rules R70, R75). -/
def decodePacket (k : Packet) : Except Reject Instr :=
  if k.b0 ≠ Machine.syncByte then .error .badSync
  else if k.b2 ≠ Machine.cmd1Byte then .error .badCmd1
  else if k.b3 ≠ Machine.cmd2Byte then .error .badCmd2
  else if k.b4 ≠ Machine.data1Byte then .error .badData1
  else if k.b6 ≠ Machine.checksum k then .error .badChecksum
  else .ok (.callPreset k.b1 k.b5 k.b6)

/-- The width in bits of a format (opcode table). -/
def formatWidth : Format → Nat
  | .pkt7 => 56
  | .upc4 => 4
  | .lane3 => 3
  | .devop3 => 3

/-- A word of a format, numbered as the opcode table numbers it; for PKT7 bits 55:48 are byte 0 (rule R71). -/
def decodeWord (f : Format) (w : Nat) : Except Reject Instr :=
  if 2 ^ formatWidth f ≤ w then .error .tooWide
  else
    match f with
    | .pkt7 => decodePacket (Machine.packetOfWord (BitVec.ofNat 56 w))
    | .upc4 => decodeUpc (BitVec.ofNat 4 w)
    | .lane3 => decodeLane (BitVec.ofNat 3 w)
    | .devop3 => decodeDevOp (BitVec.ofNat 3 w)

/-- The bytes a word of a format takes: seven for a packet, one for a code. -/
def formatBytes : Format → Nat
  | .pkt7 => 7
  | .upc4 => 1
  | .lane3 => 1
  | .devop3 => 1

/-- The number a byte sequence stands for, first byte most significant (rule R71). -/
def bytesToNat (bs : List Byte) : Nat := bs.foldl (fun n b => n * 256 + b.toNat) 0

/-- The decoder on bytes, first byte on the wire first; total, rejecting by name. -/
def decodeBytes (f : Format) (bs : List Byte) : Except Reject Instr :=
  if bs.length ≠ formatBytes f then .error .wrongLength else decodeWord f (bytesToNat bs)

/-- The instruction of a table row's word. A 56-bit word is a packet. A one-byte word is a UPC code, because UPC is what the
sequencer fetches from: the lane and transaction rows have the same numbers in spaces of their own (log 7). -/
def decodeTableWord (nbits w : Nat) : Option Instr :=
  match nbits with
  | 56 => (decodeWord .pkt7 w).toOption
  | 8 => (decodeWord .upc4 w).toOption
  | 4 => (decodeWord .upc4 w).toOption
  | _ => none

/-- The format of an instruction (opcode table). -/
def formatOf : Instr → Format
  | .callPreset _ _ _ => .pkt7
  | .start => .upc4
  | .encode => .upc4
  | .openPort => .upc4
  | .cfgGet => .upc4
  | .cfgSet => .upc4
  | .cfgTmo => .upc4
  | .send => .upc4
  | .verify => .upc4
  | .finalize => .upc4
  | .close => .upc4
  | .halt => .upc4
  | .laneSync => .lane3
  | .laneAddr => .lane3
  | .laneCmd1 => .lane3
  | .laneCmd2 => .lane3
  | .laneData1 => .lane3
  | .laneData2 => .lane3
  | .laneChk => .lane3
  | .devOpen => .devop3
  | .devGetState => .devop3
  | .devSetState => .devop3
  | .devSetTimeouts => .devop3
  | .devWrite => .devop3
  | .devFlush => .devop3
  | .devClose => .devop3

/-- The packet a CALL_PRESET instruction stands for, field by field (rule R70). -/
def packetFields (a p c : Byte) : Packet :=
  ⟨Machine.syncByte, a, Machine.cmd1Byte, Machine.cmd2Byte, Machine.data1Byte, p, c⟩

/-- The word of an instruction in its format, from the tables of rules R70, R84, R87 and R82. -/
def encode : Instr → Nat
  | .callPreset a p c => (Machine.packetWord (packetFields a p c)).toNat
  | .start => 0
  | .encode => 1
  | .openPort => 2
  | .cfgGet => 3
  | .cfgSet => 4
  | .cfgTmo => 5
  | .send => 6
  | .verify => 7
  | .finalize => 8
  | .close => 9
  | .halt => 10
  | .laneSync => 0
  | .laneAddr => 1
  | .laneCmd1 => 2
  | .laneCmd2 => 3
  | .laneData1 => 4
  | .laneData2 => 5
  | .laneChk => 6
  | .devOpen => 0
  | .devGetState => 1
  | .devSetState => 2
  | .devSetTimeouts => 3
  | .devWrite => 4
  | .devFlush => 5
  | .devClose => 6

/-- The `n` low bytes of a number, most significant first. -/
def natToBytes : Nat → Nat → List Byte
  | 0, _ => []
  | n + 1, w => natToBytes n (w / 256) ++ [BitVec.ofNat 8 w]

/-- The bytes of an instruction, first byte on the wire first: a packet's seven, or the one byte of a code. -/
def encodeBytes (i : Instr) : List Byte := natToBytes (formatBytes (formatOf i)) (encode i)

/-- The mask of a format's rows in the opcode table (rule R71 for the packet). -/
def rowMask (f : Format) : Nat :=
  match f with
  | .pkt7 => 0xFF00FFFFFF0000
  | .upc4 => 0xF
  | .lane3 => 0x7
  | .devop3 => 0x7

/-- The match of an instruction's row: for a code the code itself; for the packet its constant bytes (rule R71). -/
def rowMatch (i : Instr) : Nat :=
  match formatOf i with
  | .pkt7 => 0xFF000007000000
  | .upc4 => encode i
  | .lane3 => encode i
  | .devop3 => encode i

end Sys2Proof
end

