-- ==== Sys2Proof/Machine/State.lean ====
section
/-!
DEFINITION. Machine/State.lean: the state of the block (10_state.md rule R20), its ports (42_interfaces.md rules R159, R160),
the event history (rule R41), the environment's state (rule R40), and the state after reset (rule R43).

A register whose type is an Option is one for which the spec itself has the value ⊥, "holds no value" (rules R11, R43, R44).
-/

namespace Sys2Proof.Machine

/-- Stop-bit settings: an enumeration with at least the value One (rule R36); a platform's other values are numbered (log 24). -/
inductive StopBits where
  /-- one stop bit -/
  | one
  /-- another value of the platform's enumeration -/
  | other (code : Nat)
  deriving DecidableEq, Repr

/-- Parity settings: an enumeration with at least the value None (rule R36); a platform's other values are numbered (log 24). -/
inductive Parity where
  /-- no parity -/
  | none
  /-- another value of the platform's enumeration -/
  | other (code : Nat)
  deriving DecidableEq, Repr

/-- A device control block: four fields the block owns and one opaque field (rules R36, R79; log 24). -/
structure Dcb where
  baud : HostInt
  byteSize : Nat
  stopBits : StopBits
  parity : Parity
  other : List Byte
  deriving DecidableEq, Repr

/-- A timeout record: five fields in milliseconds (rules R32, R80). -/
structure Tmo where
  readInterval : Nat
  readMult : Nat
  readConst : Nat
  writeMult : Nat
  writeConst : Nat
  deriving DecidableEq, Repr

/-- The packet buffer PKT[0..6]: seven byte registers, each possibly ⊥ (rules R24, R43). -/
structure PktBuf where
  r0 : Option Byte
  r1 : Option Byte
  r2 : Option Byte
  r3 : Option Byte
  r4 : Option Byte
  r5 : Option Byte
  r6 : Option Byte
  deriving DecidableEq, Repr

/-- CONN, the six connection states (rules R26, R83). -/
inductive Conn where
  | unopened
  | opened
  | configured
  | sent
  | finalized
  | closed
  deriving DecidableEq, Repr

/-- ERR, the error of the session (rules R29, R170). -/
inductive Err where
  | none
  | argumentError
  | portUnavailable
  | configFailed
  | writeCallFailed
  | shortWrite
  deriving DecidableEq, Repr

/-- A diagnostic message in its three abstract forms (rules R14, R157). -/
inductive Diag where
  /-- a fatal error -/
  | error (e : Err)
  /-- a full write, with the packet's bytes -/
  | success (k : Packet)
  /-- a short write, with the count -/
  | partialWrite (n : Count)
  deriving DecidableEq, Repr

/-- An entry of the event history EV: a transaction with its arguments and answer, or a message (rule R41). -/
inductive Event where
  /-- Open(port) and whether it answered Ok -/
  | openPort (port : HostInt) (ok : Bool)
  /-- GetState and its answer, none for Fail -/
  | getState (answer : Option Dcb)
  /-- SetState(d) and whether it answered Ok -/
  | setState (d : Dcb) (ok : Bool)
  /-- SetTimeouts(t) and whether it answered Ok -/
  | setTimeouts (t : Tmo) (ok : Bool)
  /-- Write(b0..b6) and its answer, none for Fail -/
  | write (k : Packet) (answer : Option Count)
  /-- Flush, answered Done -/
  | flush
  /-- Close, answered Done -/
  | close
  /-- a diagnostic message -/
  | diag (m : Diag)
  deriving DecidableEq, Repr

/-- The host's input wires (rules R21, R159). -/
structure HostIn where
  start : Bool
  camIn : HostInt
  presetIn : HostInt
  baudIn : HostInt
  portIn : HostInt
  deriving DecidableEq, Repr

/-- The device request wires dev_req_* (rule R160). -/
structure DevReq where
  valid : Bool
  op : BitVec 3
  port : HostInt
  dcb : Dcb
  tmo : Tmo
  data : BitVec 56
  deriving DecidableEq, Repr

/-- The device answer wires dev_rsp_* (rule R160). -/
structure DevRsp where
  valid : Bool
  ok : Bool
  dcb : Dcb
  count : Count
  deriving DecidableEq, Repr

/-- Which fields of a control block a rejected SetState changed (rule R187, U17). -/
structure DcbMask where
  baud : Bool
  byteSize : Bool
  stopBits : Bool
  parity : Bool
  other : Bool
  deriving DecidableEq, Repr

/-- What the device will do with one transaction: the free part of its behaviour (rule R12; log 4). Each transaction reads
the fields that concern it. -/
structure DevChoice where
  /-- willing to answer Ok (rules R186 to R189); for Flush and Close, which have no failure, the level the device happens to put on
  dev_rsp_ok with its Done, which the block ignores (rules R82, R160; log 37) -/
  ok : Bool
  /-- the count of a write that answers Ok (rule R189, U3) -/
  count : Count
  /-- how many bytes a failed write took, 0 to 7 (rule R189, U16) -/
  taken : Fin 8
  /-- the fields a failed SetState changed (rule R187, U17) -/
  dcbChanged : DcbMask
  /-- the timeout settings after a failed SetTimeouts, none if unchanged (log 17) -/
  tmoAfter : Option Tmo
  /-- whether Flush drained the queue before answering (rule R191, U6) -/
  drained : Bool
  /-- which of the bytes still queued at Close are sent, oldest first (rule R192, U5) -/
  sent : List Bool
  deriving DecidableEq, Repr

/-- The state of one existing device (rules R40, R193). -/
structure Device where
  /-- whether another agent holds the port (rule R40 a) -/
  heldByOther : Bool
  /-- the device's own control block (rule R40 b) -/
  dcb : Dcb
  /-- the device's timeout settings (rule R40 c) -/
  tmo : Tmo
  /-- TXQ, accepted and not yet sent, oldest first (rule R40 d) -/
  txq : List Byte
  /-- LINE, physically transmitted, in order (rule R40 e) -/
  line : List Byte
  deriving DecidableEq, Repr

/-- Whose move comes next (rule R16; log 21). -/
inductive Turn where
  /-- the sequencer runs one micro-operation -/
  | sequencer
  /-- the transmitter of a port moves one byte from TXQ to LINE (rule R190) -/
  | drain (port : HostInt)
  /-- the host drives its input wires (rules R150, R153) -/
  | drive (h : HostIn)
  /-- the host asserts rst (rules R200, R202) -/
  | reset
  /-- another agent tries to open a port (rules R61, R209) -/
  | otherOpen (port : HostInt)
  /-- another agent closes a port it holds (rule R61) -/
  | otherClose (port : HostInt)
  /-- the device makes up its mind how it answers a transaction: the outstanding one, or the next one (rule R185; log 4) -/
  | answer (c : DevChoice)
  /-- the settings of a port that this block does not hold change: the platform's doing after a session, or a later user's
  (rule R211, U18; log 35) -/
  | portSettings (port : HostInt) (d : Dcb) (m : Tmo)
  deriving DecidableEq, Repr

/-- The registers that can hold ⊥ (rule R43). -/
inductive RegName where
  | cam
  | preset
  | pkt (i : Fin 7)
  | baud
  | port
  | dcb
  | bytesWritten
  | exit
  deriving DecidableEq, Repr

/-- Why the machine stops with a fault. -/
inductive Fault where
  /-- A micro-operation, a lane or a host read needs a register that holds ⊥ (rule R44, U15). Raised by every meaning
  that reads such a register and by the host reads of Machine/FrontEnd.lean. Safe: the spec itself says it faults. -/
  | unwritten (r : RegName)
  deriving DecidableEq, Repr

/-- Why the machine gives no meaning. -/
inductive Refusal where
  /-- An instruction without a meaning yet; no arm raises it. Safe. -/
  | notModelled (mnemonic : String)
  /-- The UPC holds a code from 11 to 15, which select no micro-operation (rule R86, U14). Raised by the fetch. Safe. -/
  | noSuchMicroOp (code : BitVec 4)
  /-- The host resets the block during a session (rule R202, U12). Raised by the reset turn. Safe. -/
  | resetDuringSession
  /-- CALL_PRESET with a checksum byte that breaks the format's constraint (rules R75, R78, U19). Safe. -/
  | malformedPacket (c : Byte)
  deriving DecidableEq, Repr

/-- The machine: the block's registers, its ports, the event history, and the environment it acts on. -/
structure State where
  /-- CAM (rule R22) -/
  cam : Option Byte
  /-- PRESET (rule R23) -/
  preset : Option Byte
  /-- PKT[0..6] (rule R24) -/
  pkt : PktBuf
  /-- BAUD (rule R34) -/
  baud : Option HostInt
  /-- PORT (rule R35) -/
  port : Option HostInt
  /-- DCB, the shadow of the device control block (rule R36) -/
  dcb : Option Dcb
  /-- BYTES_WRITTEN (rule R37) -/
  bytesWritten : Option Count
  /-- UPC (rule R25) -/
  upc : BitVec 4
  /-- CONN (rule R26) -/
  conn : Conn
  /-- HANDLE (rule R27) -/
  handle : Bool
  /-- PKT_VALID (rule R28) -/
  pktValid : Bool
  /-- ERR (rule R29) -/
  err : Err
  /-- DONE (rule R30) -/
  done : Bool
  /-- EXIT (rule R31) -/
  exit : Option Bool
  /-- the host's input wires (rule R21) -/
  inp : HostIn
  /-- the device request wires (rule R160) -/
  req : DevReq
  /-- the device answer wires (rule R160) -/
  rsp : DevRsp
  /-- the message on the diagnostic port (rules R14, R157) -/
  diagPort : Option Diag
  /-- EV, the event history, oldest first (rule R41) -/
  ev : List Event
  /-- the existing devices by port number, strictly rising (rule R40) -/
  devs : List (Nat × Device)
  /-- the port this block's connection holds (rules R27, R186, R192) -/
  link : Option HostInt
  /-- the model's own: what the device will answer, next first (log 4) -/
  answers : List DevChoice
  /-- the model's own: whose move comes next (log 21) -/
  turns : List Turn
  deriving DecidableEq, Repr

/-- What a meaning answers. -/
abbrev Result := Host.Outcome State Fault Refusal

/-- The control block on idle wires (log 11). -/
def Dcb.idle : Dcb := ⟨0, 0, .one, .none, []⟩

/-- The timeout record on idle wires (log 11). -/
def Tmo.idle : Tmo := ⟨0, 0, 0, 0, 0⟩

/-- The packet buffer with no byte written (rule R43). -/
def PktBuf.empty : PktBuf := ⟨none, none, none, none, none, none, none⟩

/-- The machine right after reset: the table of rule R43; the wires and the environment as logs 4, 11, 12, 13, 21, 25 say. -/
def State.reset : State where
  cam := none
  preset := none
  pkt := PktBuf.empty
  baud := none
  port := none
  dcb := none
  bytesWritten := none
  upc := 0
  conn := .unopened
  handle := false
  pktValid := false
  err := .none
  done := false
  exit := none
  inp := ⟨false, 0, 0, 0, 0⟩
  req := ⟨false, 0, 0, Dcb.idle, Tmo.idle, 0⟩
  rsp := ⟨false, false, Dcb.idle, 0⟩
  diagPort := none
  ev := []
  devs := []
  link := none
  answers := []
  turns := []

end Sys2Proof.Machine
end

