-- ==== Sys2Proof/Machine/Flags.lean ====
section
/-!
DEFINITION. Machine/Flags.lean: the codes and the flag computations: which errors are fatal, the exit status, the
verification's test (10_state.md rules R26 to R31, R38; 60_exceptions.md rule R170; 41_transport.md rule R135).
-/

namespace Sys2Proof.Machine

/-- The number of a connection state (rule R83). -/
def connCode : Conn → BitVec 3
  | .unopened => 0
  | .opened => 1
  | .configured => 2
  | .sent => 3
  | .finalized => 4
  | .closed => 5

/-- The number of an error (rule R170). -/
def errCode : Err → BitVec 3
  | .none => 0
  | .argumentError => 1
  | .portUnavailable => 2
  | .configFailed => 3
  | .writeCallFailed => 4
  | .shortWrite => 5

/-- diag_kind on the diagnostic port (rule R159). -/
def diagKind : Diag → BitVec 2
  | .error _ => 0
  | .success _ => 1
  | .partialWrite _ => 2

/-- The four fatal errors (rule R170, glossary). -/
def isFatal : Err → Bool
  | .none => false
  | .argumentError => true
  | .portUnavailable => true
  | .configFailed => true
  | .writeCallFailed => true
  | .shortWrite => false

/-- EXIT as a function of the final error: 1 exactly for a fatal one (rules R31, R155). -/
def exitOf (e : Err) : Bool := isFatal e

/-- VERIFY's test: the count equals 7, as unsigned numbers (rule R135). -/
def fullCount (n : Count) : Bool := n.toNat == expectedCount

end Sys2Proof.Machine
end

