-- ==== Sys2Proof/Machine/Ops.lean ====
section
/-!
DEFINITION. Machine/Ops.lean: the named operations over the state: the UPC codes, reading a register that may hold ⊥, the
packet buffer, messages, the abort (the block's exception entry), the request and answer wires, and the table of devices.
-/

namespace Sys2Proof.Machine

/-! ## UPC codes (30_encoding.md rule R84) -/

/-- UPC code IDLE. -/
def upcIdle : BitVec 4 := 0
/-- UPC code ENCODE. -/
def upcEncode : BitVec 4 := 1
/-- UPC code OPEN. -/
def upcOpen : BitVec 4 := 2
/-- UPC code CFG_GET. -/
def upcCfgGet : BitVec 4 := 3
/-- UPC code CFG_SET. -/
def upcCfgSet : BitVec 4 := 4
/-- UPC code CFG_TMO. -/
def upcCfgTmo : BitVec 4 := 5
/-- UPC code SEND. -/
def upcSend : BitVec 4 := 6
/-- UPC code VERIFY. -/
def upcVerify : BitVec 4 := 7
/-- UPC code FINALIZE. -/
def upcFinalize : BitVec 4 := 8
/-- UPC code CLOSE. -/
def upcClose : BitVec 4 := 9
/-- UPC code HALT. -/
def upcHalt : BitVec 4 := 10

/-! ## Reading registers -/

/-- Read a register that may hold ⊥ and go on with its value; ⊥ faults (10_state.md rule R44). -/
def need {α : Type} (r : Option α) (n : RegName) (k : α → Result) : Result :=
  match r with
  | none => .fault (.unwritten n)
  | some v => k v

/-- PKT[i] of the buffer (10_state.md rule R24). -/
def pktGet (b : PktBuf) (i : Fin 7) : Option Byte :=
  match i with
  | 0 => b.r0
  | 1 => b.r1
  | 2 => b.r2
  | 3 => b.r3
  | 4 => b.r4
  | 5 => b.r5
  | 6 => b.r6

/-- The buffer with PKT[i] written (10_state.md rule R24). -/
def pktSet (b : PktBuf) (i : Fin 7) (v : Byte) : PktBuf :=
  match i with
  | 0 => { b with r0 := some v }
  | 1 => { b with r1 := some v }
  | 2 => { b with r2 := some v }
  | 3 => { b with r3 := some v }
  | 4 => { b with r4 := some v }
  | 5 => { b with r5 := some v }
  | 6 => { b with r6 := some v }

/-- The buffer that holds a whole packet. -/
def pktFull (k : Packet) : PktBuf := ⟨some k.b0, some k.b1, some k.b2, some k.b3, some k.b4, some k.b5, some k.b6⟩

/-- Read all seven packet registers and go on with the packet; the first that holds ⊥ faults (rules R24, R44). -/
def needPacket (b : PktBuf) (k : Packet → Result) : Result :=
  need b.r0 (.pkt 0) fun b0 => need b.r1 (.pkt 1) fun b1 => need b.r2 (.pkt 2) fun b2 => need b.r3 (.pkt 3) fun b3 =>
    need b.r4 (.pkt 4) fun b4 => need b.r5 (.pkt 5) fun b5 => need b.r6 (.pkt 6) fun b6 => k ⟨b0, b1, b2, b3, b4, b5, b6⟩

/-! ## Messages and the abort -/

/-- Diag(m): append the message to EV and present it on the diagnostic port (00_scope.md rule R14). -/
def emit (m : Diag) (s : State) : State := { s with ev := s.ev ++ [.diag m], diagPort := some m }

/-- The direct halt of a session that holds no connection (41_transport.md rule R121, the Fail branch). -/
def haltWith (e : Err) (s : State) : State :=
  { emit (.error e) s with err := e, conn := .closed, exit := some (exitOf e), done := true, upc := upcHalt }

/-- `raise E`, the abort: the block's exception entry (00_scope.md rule R13, 60_exceptions.md rule R176). With the connection
held it records the error, emits it and goes to CLOSE; without, it halts directly. There is no return (rule R180; log 34). -/
def raiseError (e : Err) (s : State) : State :=
  if s.handle then { emit (.error e) s with err := e, upc := upcClose } else haltWith e s

/-! ## Device transactions (00_scope.md rule R12, 42_interfaces.md rule R160) -/

/-- Raise dev_req_valid with an operation; no answer is on the wires yet. The payload wires stand as they are. -/
def raiseReq (op : BitVec 3) (s : State) : State :=
  { s with req := { s.req with valid := true, op := op }, rsp := { s.rsp with valid := false } }

/-- The device's later choices, once the next one is taken. -/
def withAnswers (rest : List DevChoice) (s : State) : State := { s with answers := rest }

/-- Raise a request and, if the device has a choice to answer with, let it answer; else the request stays raised. -/
def serve (op : BitVec 3) (answer : DevChoice → State → State) (s : State) : State :=
  match s.answers with
  | [] => raiseReq op s
  | c :: rest => answer c (withAnswers rest (raiseReq op s))

/-- Both valid wires fall once the answer is bound (rule R160). -/
def settle (s : State) : State :=
  { s with req := { s.req with valid := false }, rsp := { s.rsp with valid := false } }

/-- Wait for the answer of a transaction: with an answer on the wires the micro-operation goes on, without one it waits with
its request held (rules R12, R160, R185; log 5). -/
def await (s : State) (k : State → Result) : Result :=
  if s.rsp.valid then k (settle s) else .next s

/-! ## The table of devices (10_state.md rule R40) -/

/-- The device of a port number, if it exists. -/
def devLookup (k : Nat) : List (Nat × Device) → Option Device
  | [] => none
  | (n, d) :: rest => if n = k then some d else devLookup k rest

/-- Change the device of a port number, if it exists; port numbers stay. -/
def devModify (k : Nat) (f : Device → Device) : List (Nat × Device) → List (Nat × Device)
  | [] => []
  | (n, d) :: rest => if n = k then (n, f d) :: rest else (n, d) :: devModify k f rest

/-- The canonical form of the table: port numbers strictly rising. -/
def devsWf : List (Nat × Device) → Bool
  | [] => true
  | (n, _) :: rest => rest.all (fun e => n < e.1) && devsWf rest

/-- The device of a port. A device is identified by the value of PORT (20_memory.md rule R59). -/
def deviceAt (s : State) (p : HostInt) : Option Device := devLookup p.toNat s.devs

/-- Change the device of a port. -/
def modifyAt (p : HostInt) (f : Device → Device) (s : State) : State := { s with devs := devModify p.toNat f s.devs }

/-- The device of this block's connection, if one is held and exists. -/
def linked (s : State) : Option Device :=
  match s.link with
  | none => none
  | some p => deviceAt s p

/-- Change the device of this block's connection; without a connection nothing changes. -/
def modifyLinked (f : Device → Device) (s : State) : State :=
  match s.link with
  | none => s
  | some p => modifyAt p f s

end Sys2Proof.Machine
end

