-- ==== Sys2Proof/Machine/Encoder.lean ====
section
/-!
DEFINITION. Machine/Encoder.lean: the Packet Encoder (40_encoder.md): the seven lanes, ENCODE, which fires all of them in one
step, and CALL_PRESET, the packet as an instruction.
-/

namespace Sys2Proof.Machine

/-- PKT[i] <- v. -/
def putByte (i : Fin 7) (v : Byte) (s : State) : State := { s with pkt := pktSet s.pkt i v }

/-- PKT[6] <- sum8 of the five bytes in the buffer; a byte that holds ⊥ faults (rules R107, R44). -/
def laneChecksum (s : State) : Result :=
  need s.pkt.r1 (.pkt 1) fun b1 => need s.pkt.r2 (.pkt 2) fun b2 => need s.pkt.r3 (.pkt 3) fun b3 =>
    need s.pkt.r4 (.pkt 4) fun b4 => need s.pkt.r5 (.pkt 5) fun b5 => .next (putByte 6 (sum8 [b1, b2, b3, b4, b5]) s)

/-- Go on with the next state of an outcome; a stop stays a stop. -/
def thenDo (o : Result) (k : State → Result) : Result :=
  match o with
  | .next s => k s
  | .fault f => .fault f
  | .refused r => .refused r

/-- The seven lanes in index order with address `a` and preset `p`, then PKT_VALID and the next UPC (rule R100). -/
def encodeWith (a p : Byte) (s : State) : Result :=
  thenDo
    (laneChecksum
      (putByte 5 p (putByte 4 data1Byte (putByte 3 cmd2Byte (putByte 2 cmd1Byte (putByte 1 a (putByte 0 syncByte s)))))))
    fun t => .next { t with pktValid := true, upc := upcOpen }

/-- ENCODE (rule R100). -/
def execEncode (s : State) : Result :=
  need s.cam .cam fun a => need s.preset .preset fun p => encodeWith a p s

/-- LANE_SYNC (rule R101). -/
def execLaneSync (s : State) : Result := .next (putByte 0 syncByte s)
/-- LANE_ADDR (rule R102). -/
def execLaneAddr (s : State) : Result := need s.cam .cam fun a => .next (putByte 1 a s)
/-- LANE_CMD1 (rule R103). -/
def execLaneCmd1 (s : State) : Result := .next (putByte 2 cmd1Byte s)
/-- LANE_CMD2 (rule R104). -/
def execLaneCmd2 (s : State) : Result := .next (putByte 3 cmd2Byte s)
/-- LANE_DATA1 (rule R105). -/
def execLaneData1 (s : State) : Result := .next (putByte 4 data1Byte s)
/-- LANE_DATA2 (rule R106). -/
def execLaneData2 (s : State) : Result := need s.preset .preset fun p => .next (putByte 5 p s)
/-- LANE_CHK (rule R107). -/
def execLaneChk (s : State) : Result := laneChecksum s

/-- CALL_PRESET a p c, the packet as an instruction: ENCODE's effect with the packet's own address and preset (rules R70, R75,
R100; log 8). A checksum byte that breaks the format's constraint has no meaning (rules R71, R75, R78). -/
def execCallPreset (a p c : Byte) (s : State) : Result :=
  if c = checksum (encodePacket a p) then encodeWith a p s else .refused (.malformedPacket c)

end Sys2Proof.Machine
end

