-- ==== Sys2Proof/Machine/Device.lean ====
section
/-!
DEFINITION. Machine/Device.lean: the seven device transactions (60_exceptions.md rules R186 to R192, 30_encoding.md rule R82).
Each reads its payload from the request wires, takes the device's next choice for what the rules leave free, changes the
device's state, puts the answer on the answer wires and appends the pair to EV (00_scope.md rule R12).
-/

namespace Sys2Proof.Machine

/-- Put an answer without payload on the wires: a Fail, or the Ok or Done of a transaction that returns nothing. What then stands on
dev_rsp_dcb and dev_rsp_count is left open (rules R187, R189, 42_interfaces.md rule R160); the model keeps the values they had
(DESIGN CHOICE, log 38). -/
def answerOk (ok : Bool) (s : State) : State := { s with rsp := { s.rsp with valid := true, ok := ok } }

/-- Append an entry to EV. -/
def record (e : Event) (s : State) : State := { s with ev := s.ev ++ [e] }

/-- A port can be opened: the device exists and nobody holds it (rule R186; one connection at a time, log 14). -/
def canOpen (s : State) : Bool :=
  match deviceAt s s.req.port with
  | none => false
  | some d => !d.heldByOther && s.link.isNone

/-- `Open(port)` (rule R186): Fail if the port cannot be opened or the device is unwilling, else Ok and the port is held. -/
def answerOpen (c : DevChoice) (s : State) : State :=
  if c.ok && canOpen s then record (.openPort s.req.port true) (answerOk true { s with link := some s.req.port })
  else record (.openPort s.req.port false) (answerOk false s)

/-- `GetState()` (rule R187): the device's current control block, or Fail; no side effect (20_memory.md rule R57). It and the
transactions below, run without a connection, answer as log 15 says. -/
def answerGetState (c : DevChoice) (s : State) : State :=
  match linked s with
  | none => record (.getState none) (answerOk false s)
  | some d =>
    if c.ok then record (.getState (some d.dcb)) { s with rsp := { s.rsp with valid := true, ok := true, dcb := d.dcb } }
    else record (.getState none) (answerOk false s)

/-- A control block between an old one and a requested one: each field is one or the other (rule R187, U17; log 16). -/
def mixDcb (m : DcbMask) (old new : Dcb) : Dcb where
  baud := if m.baud then new.baud else old.baud
  byteSize := if m.byteSize then new.byteSize else old.byteSize
  stopBits := if m.stopBits then new.stopBits else old.stopBits
  parity := if m.parity then new.parity else old.parity
  other := if m.other then new.other else old.other

/-- `SetState(d)` (rule R187): Ok, and then the control block is d; or Fail, and then it is between its old value and d. -/
def answerSetState (c : DevChoice) (s : State) : State :=
  if c.ok && (linked s).isSome then
    record (.setState s.req.dcb true) (answerOk true (modifyLinked (fun d => { d with dcb := s.req.dcb }) s))
  else
    record (.setState s.req.dcb false)
      (answerOk false (modifyLinked (fun d => { d with dcb := mixDcb c.dcbChanged d.dcb s.req.dcb }) s))

/-- `SetTimeouts(t)` (rule R188): Ok, and then the settings are t; or Fail, and what they then are is free (log 17). -/
def answerSetTimeouts (c : DevChoice) (s : State) : State :=
  if c.ok && (linked s).isSome then
    record (.setTimeouts s.req.tmo true) (answerOk true (modifyLinked (fun d => { d with tmo := s.req.tmo }) s))
  else
    record (.setTimeouts s.req.tmo false)
      (answerOk false (modifyLinked (fun d => { d with tmo := c.tmoAfter.getD d.tmo }) s))

/-- Queue the first `n` of the bytes on dev_req_data, index 0 first (rules R56, R189); more than 7 queues all
seven (U7; log 18). -/
def queueBytes (n : Nat) (s : State) : State :=
  modifyLinked (fun d => { d with txq := d.txq ++ (packetBytes (packetOfWord s.req.data)).take n }) s

/-- `Write(b0..b6)` (rule R189): Ok(n) and the first n bytes are queued; or Fail and some prefix is. -/
def answerWrite (c : DevChoice) (s : State) : State :=
  if c.ok && (linked s).isSome then
    record (.write (packetOfWord s.req.data) (some c.count))
      { queueBytes c.count.toNat s with rsp := { s.rsp with valid := true, ok := true, count := c.count } }
  else record (.write (packetOfWord s.req.data) none) (answerOk false (queueBytes c.taken.val s))

/-- `Flush()` (rule R191): Done, with the queue drained to the line, or only the platform's word for it (U6; log 20). The
level of dev_rsp_ok with the Done is free: the block ignores it (rules R82, R160; log 37). -/
def answerFlush (c : DevChoice) (s : State) : State :=
  record .flush
    (answerOk c.ok (modifyLinked (fun d => if c.drained then { d with line := d.line ++ d.txq, txq := [] } else d) s))

/-- The bytes of a queue that a mask lets through, in order. -/
def keepSent : List Bool → List Byte → List Byte
  | b :: bs, x :: xs => if b then x :: keepSent bs xs else keepSent bs xs
  | _, _ => []

/-- `Close()` (rule R192): Done, the port is no longer held, each byte still queued is sent or dropped (U5, log 19); the
settings stay as last set (rule R192, 70_reset_and_hazards.md rule R211; log 35). The level of dev_rsp_ok is free, as for Flush
(log 37). -/
def answerClose (c : DevChoice) (s : State) : State :=
  record .close
    (answerOk c.ok
      { modifyLinked (fun d => { d with line := d.line ++ keepSent c.sent d.txq, txq := [] }) s with link := none })

/-- Transaction code 0, Open, on the port number of dev_req_port (rule R82). -/
def devOpen (s : State) : State := serve 0 answerOpen s
/-- Transaction code 1, GetState (rule R82). -/
def devGetState (s : State) : State := serve 1 answerGetState s
/-- Transaction code 2, SetState, of the record on dev_req_dcb (rule R82). -/
def devSetState (s : State) : State := serve 2 answerSetState s
/-- Transaction code 3, SetTimeouts, of the record on dev_req_tmo (rule R82). -/
def devSetTimeouts (s : State) : State := serve 3 answerSetTimeouts s
/-- Transaction code 4, Write, of the seven bytes on dev_req_data (rule R82). -/
def devWrite (s : State) : State := serve 4 answerWrite s
/-- Transaction code 5, Flush (rule R82). -/
def devFlush (s : State) : State := serve 5 answerFlush s
/-- Transaction code 6, Close (rule R82). -/
def devClose (s : State) : State := serve 6 answerClose s

/-! The rows of the opcode table's format DEVOP3: one transaction with the payload on the wires (log 10). -/

/-- DEV_OPEN (rule R186). -/
def execDevOpen (s : State) : Result := .next (devOpen s)
/-- DEV_GETSTATE (rule R187). -/
def execDevGetState (s : State) : Result := .next (devGetState s)
/-- DEV_SETSTATE (rule R187). -/
def execDevSetState (s : State) : Result := .next (devSetState s)
/-- DEV_SETTIMEOUTS (rule R188). -/
def execDevSetTimeouts (s : State) : Result := .next (devSetTimeouts s)
/-- DEV_WRITE (rule R189). -/
def execDevWrite (s : State) : Result := .next (devWrite s)
/-- DEV_FLUSH (rule R191). -/
def execDevFlush (s : State) : Result := .next (devFlush s)
/-- DEV_CLOSE (rule R192). -/
def execDevClose (s : State) : Result := .next (devClose s)

end Sys2Proof.Machine
end

