-- ==== Sys2Proof/Machine/Transport.lean ====
section
/-!
DEFINITION. Machine/Transport.lean: the Transport Sender (41_transport.md): the micro-operations START, OPEN, CFG_GET, CFG_SET,
CFG_TMO, SEND, VERIFY, FINALIZE, CLOSE and HALT. A micro-operation with a transaction raises its request with the payload,
awaits the answer (log 5) and goes on by it.
-/

namespace Sys2Proof.Machine

/-- TMO_CFG, the constant timeout record (10_state.md rule R32, 00_scope.md rule R7). -/
def tmoCfg : Tmo where
  readInterval := Config.tReadIntervalMs
  readMult := 10
  readConst := 50
  writeMult := 10
  writeConst := 50

/-- The control block CFG_SET writes back: the four owned fields set, `other` as read (rules R124, R60, R79). -/
def lineSettings (b : HostInt) (d : Dcb) : Dcb := { d with baud := b, byteSize := 8, stopBits := .one, parity := .none }

/-- Put a port number on dev_req_port (rule R160). -/
def putPort (p : HostInt) (s : State) : State := { s with req := { s.req with port := p } }
/-- Put a control block on dev_req_dcb (rule R160). -/
def putDcb (d : Dcb) (s : State) : State := { s with req := { s.req with dcb := d } }
/-- Put a timeout record on dev_req_tmo (rule R160). -/
def putTmo (t : Tmo) (s : State) : State := { s with req := { s.req with tmo := t } }
/-- Put a packet on dev_req_data, PKT[0] in bits 55:48 (rule R160). -/
def putData (k : Packet) (s : State) : State := { s with req := { s.req with data := packetWord k } }

/-- START (rule R120). With start = 0 the sequencer has no step: the state stays (log 6). -/
def execStart (s : State) : Result :=
  if s.inp.start then
    .next
      { s with
        cam := some (trunc8 s.inp.camIn), preset := some (trunc8 s.inp.presetIn), baud := some s.inp.baudIn,
        port := some s.inp.portIn, upc := upcEncode }
  else .next s

/-- OPEN (rule R121). -/
def execOpenPort (s : State) : Result :=
  need s.port .port fun p =>
    await (devOpen (putPort p s)) fun t =>
      if t.rsp.ok then .next { t with handle := true, conn := .opened, upc := upcCfgGet }
      else .next (haltWith .portUnavailable t)

/-- CFG_GET (rule R123). -/
def execCfgGet (s : State) : Result :=
  await (devGetState s) fun t =>
    if t.rsp.ok then .next { t with dcb := some t.rsp.dcb, upc := upcCfgSet } else .next (raiseError .configFailed t)

/-- CFG_SET (rule R124). -/
def execCfgSet (s : State) : Result :=
  need s.dcb .dcb fun d =>
    need s.baud .baud fun b =>
      await (devSetState (putDcb (lineSettings b d) s)) fun t =>
        if t.rsp.ok then .next { t with dcb := some (lineSettings b d), upc := upcCfgTmo }
        else .next (raiseError .configFailed t)

/-- CFG_TMO (rule R125). -/
def execCfgTmo (s : State) : Result :=
  await (devSetTimeouts (putTmo tmoCfg s)) fun t =>
    if t.rsp.ok then .next { t with conn := .configured, upc := upcSend } else .next (raiseError .configFailed t)

/-- SEND (rule R126): one Write of all seven bytes, in index order. -/
def execSend (s : State) : Result :=
  needPacket s.pkt fun k =>
    await (devWrite (putData k s)) fun t =>
      if t.rsp.ok then .next { t with bytesWritten := some t.rsp.count, conn := .sent, upc := upcVerify }
      else .next (raiseError .writeCallFailed t)

/-- VERIFY (rule R127): success with the packet's bytes, or the non-fatal short write with the count. -/
def execVerify (s : State) : Result :=
  need s.bytesWritten .bytesWritten fun n =>
    if fullCount n then needPacket s.pkt fun k => .next { emit (.success k) s with upc := upcFinalize }
    else .next { emit (.partialWrite n) s with err := .shortWrite, upc := upcFinalize }

/-- FINALIZE (rule R128). -/
def execFinalize (s : State) : Result :=
  await (devFlush s) fun t => .next { t with conn := .finalized, upc := upcClose }

/-- CLOSE (rule R129). -/
def execClose (s : State) : Result :=
  await (devClose s) fun t =>
    .next { t with handle := false, conn := .closed, exit := some (exitOf t.err), done := true, upc := upcHalt }

/-- HALT (rule R130): the sequencer has no step and `start` is ignored: the state stays (log 6). -/
def execHalt (s : State) : Result := .next s

end Sys2Proof.Machine
end

