-- ==== Sys2Proof/Machine/Dispatch.lean ====
section
/-!
DEFINITION. Machine/Dispatch.lean: one arm per instruction, each one direct call of its meaning.
-/

namespace Sys2Proof.Machine

def exec (i : Instr) (s : State) : Host.Outcome State Fault Refusal :=
  match i with
  | .callPreset a p c => Sys2Proof.Machine.execCallPreset a p c s
  | .start => Sys2Proof.Machine.execStart s
  | .encode => Sys2Proof.Machine.execEncode s
  | .openPort => Sys2Proof.Machine.execOpenPort s
  | .cfgGet => Sys2Proof.Machine.execCfgGet s
  | .cfgSet => Sys2Proof.Machine.execCfgSet s
  | .cfgTmo => Sys2Proof.Machine.execCfgTmo s
  | .send => Sys2Proof.Machine.execSend s
  | .verify => Sys2Proof.Machine.execVerify s
  | .finalize => Sys2Proof.Machine.execFinalize s
  | .close => Sys2Proof.Machine.execClose s
  | .halt => Sys2Proof.Machine.execHalt s
  | .laneSync => Sys2Proof.Machine.execLaneSync s
  | .laneAddr => Sys2Proof.Machine.execLaneAddr s
  | .laneCmd1 => Sys2Proof.Machine.execLaneCmd1 s
  | .laneCmd2 => Sys2Proof.Machine.execLaneCmd2 s
  | .laneData1 => Sys2Proof.Machine.execLaneData1 s
  | .laneData2 => Sys2Proof.Machine.execLaneData2 s
  | .laneChk => Sys2Proof.Machine.execLaneChk s
  | .devOpen => Sys2Proof.Machine.execDevOpen s
  | .devGetState => Sys2Proof.Machine.execDevGetState s
  | .devSetState => Sys2Proof.Machine.execDevSetState s
  | .devSetTimeouts => Sys2Proof.Machine.execDevSetTimeouts s
  | .devWrite => Sys2Proof.Machine.execDevWrite s
  | .devFlush => Sys2Proof.Machine.execDevFlush s
  | .devClose => Sys2Proof.Machine.execDevClose s

end Sys2Proof.Machine
end

