-- ==== Sys2Proof/Machine/Environment.lean ====
section
/-!
DEFINITION. Machine/Environment.lean: the moves of the agents other than the sequencer (00_scope.md rule R16): the drain, the
host's inputs and reset, another holder of a port, the device's answering, and what becomes of a port the block does not hold.
-/

namespace Sys2Proof.Machine

/-- The drain: the byte at the head of TXQ goes to the end of LINE; an empty queue stays (60_exceptions.md rule R190). -/
def drainByte (d : Device) : Device :=
  match d.txq with
  | [] => d
  | b :: rest => { d with txq := rest, line := d.line ++ [b] }

/-- Reset of the block: every register takes its value of the table of 10_state.md rule R43, EV is empty, the block's wires are
idle; the host's wires and the environment are not touched (70_reset_and_hazards.md rule R200). -/
def resetBlock (s : State) : State :=
  { State.reset with inp := s.inp, devs := s.devs, link := s.link, answers := s.answers, turns := s.turns }

/-- Reset is allowed in IDLE and HALT only (70_reset_and_hazards.md rule R202, decision D18; log 22). -/
def resetAllowed (s : State) : Bool := s.upc == upcIdle || s.upc == upcHalt

/-- Another agent tries to open a port: it gets the hold if the device exists and nobody, this block included, holds it
(20_memory.md rule R61, 70_reset_and_hazards.md rule R209; log 33). -/
def otherOpens (p : HostInt) (s : State) : State :=
  if s.link = some p then s else modifyAt p (fun d => { d with heldByOther := true }) s

/-- Another agent gives up its hold of a port (20_memory.md rule R61). -/
def otherCloses (p : HostInt) (s : State) : State := modifyAt p (fun d => { d with heldByOther := false }) s

/-- The device decides its answer to a transaction. A micro-operation that waits with its request raised goes on with it at its
next step (60_exceptions.md rule R185, 00_scope.md rule R12; log 4). -/
def deviceAnswers (c : DevChoice) (s : State) : State := { s with answers := s.answers ++ [c] }

/-- The control block and the timeout settings of a port become any others, unless this block holds the port: what becomes of the
settings after a session is left open (93_implementation_defined.md U18), and while a session holds the port nobody else has access
(20_memory.md rule R61; log 35). -/
def portSettingsChange (p : HostInt) (d : Dcb) (m : Tmo) (s : State) : State :=
  if s.link = some p then s else modifyAt p (fun x => { x with dcb := d, tmo := m }) s

/-- The move of a turn that is not the sequencer's. No move adds a port or takes one away: whether the set of existing ports changes
during a run is left open by 10_state.md rule R40, and the model keeps it (DESIGN CHOICE, log 36). -/
def environmentMove (t : Turn) (s : State) : Result :=
  match t with
  | .sequencer => .next s
  | .drain p => .next (modifyAt p drainByte s)
  | .drive h => .next { s with inp := h }
  | .reset => if resetAllowed s then .next (resetBlock s) else .refused .resetDuringSession
  | .otherOpen p => .next (otherOpens p s)
  | .otherClose p => .next (otherCloses p s)
  | .answer c => .next (deviceAnswers c s)
  | .portSettings p d m => .next (portSettingsChange p d m s)

end Sys2Proof.Machine
end

