-- ==== Sys2Proof/Machine/Sequencer.lean ====
section
/-!
DEFINITION. Machine/Sequencer.lean: which instruction the sequencer runs next, and how a table row's word is laid where the
sequencer selects it. The micro-program is wired, not stored (20_memory.md rule R66): the one thing that selects a
micro-operation is the register UPC (30_encoding.md rule R84).
-/

namespace Sys2Proof.Machine

/-- The fetch: the micro-operation the UPC code selects; codes 11 to 15 are refused (30_encoding.md rules R84, R86). -/
def fetch (s : State) : Except Refusal Instr :=
  match decodeUpc s.upc with
  | .ok i => .ok i
  | .error _ => .error (.noSuchMicroOp s.upc)

/-- The reference device of 60_exceptions.md rule R193: it opens a free port, answers Ok, takes all seven bytes and drains. It is
also the answer a placed word runs with if none is listed (log 26). What rule R193 leaves open of it is the model's choice: bytes still
queued at a Close are dropped, and where a script replaces an answer by Fail no byte is taken and no setting changes (log 39). -/
def willing : DevChoice where
  ok := true
  count := BitVec.ofNat Config.cntW 7
  taken := 0
  dcbChanged := ⟨false, false, false, false, false⟩
  tmoAfter := none
  drained := true
  sent := []

/-- The registers a micro-operation reads, given zeros where they hold ⊥ (log 26). -/
def fillOperands (s : State) : State :=
  { s with
    cam := some (s.cam.getD 0), preset := some (s.preset.getD 0), baud := some (s.baud.getD 0), port := some (s.port.getD 0),
    dcb := some (s.dcb.getD Dcb.idle), bytesWritten := some (s.bytesWritten.getD 0),
    pkt := ⟨some (s.pkt.r0.getD 0), some (s.pkt.r1.getD 0), some (s.pkt.r2.getD 0), some (s.pkt.r3.getD 0),
      some (s.pkt.r4.getD 0), some (s.pkt.r5.getD 0), some (s.pkt.r6.getD 0)⟩ }

/-- The state in which the very next step runs the micro-operation of a UPC code: the code in UPC, the sequencer's turn, the
strobe up, operands readable, a device answer at hand (log 26). -/
def selectUpc (c : BitVec 4) (s : State) : State :=
  { fillOperands s with
    upc := c, turns := [], inp := { s.inp with start := true },
    answers := if s.answers = [] then [willing] else s.answers }

/-- The state in which the very next step builds a packet: ENCODE selected, with the packet's own address and preset in CAM and
PRESET (30_encoding.md rule R75; log 8, log 26). -/
def selectPacket (k : Packet) (s : State) : State :=
  { selectUpc upcEncode s with cam := some k.b1, preset := some k.b5 }

/-- A table row's word laid where the sequencer selects its next instruction: a 56-bit packet or a UPC code (log 7). -/
def placeWord (nbits w : Nat) (s : State) : State :=
  match nbits with
  | 56 => selectPacket (packetOfWord (BitVec.ofNat 56 w)) s
  | _ => selectUpc (BitVec.ofNat 4 w) s

end Sys2Proof.Machine
end

