-- ==== Sys2Proof/Machine/Step.lean ====
section
/-!
DEFINITION. Machine/Step.lean: one step of the whole machine. With no turn listed, or the sequencer's turn, the sequencer runs
the micro-operation UPC selects (00_scope.md rule R15); any other turn is the move of another agent (rule R16; log 21).
-/

namespace Sys2Proof.Machine

/-- The sequencer's step: fetch the micro-operation and run it. -/
def sequencerStep (s : State) : Result :=
  match fetch s with
  | .ok i => exec i s
  | .error r => .refused r

/-- One step: the agent whose turn it is moves. -/
def step (s : State) : Host.Outcome State Fault Refusal :=
  match s.turns with
  | [] => sequencerStep s
  | t :: rest =>
    match t with
    | .sequencer => sequencerStep { s with turns := rest }
    | .drain p => environmentMove (.drain p) { s with turns := rest }
    | .drive h => environmentMove (.drive h) { s with turns := rest }
    | .reset => environmentMove .reset { s with turns := rest }
    | .otherOpen p => environmentMove (.otherOpen p) { s with turns := rest }
    | .otherClose p => environmentMove (.otherClose p) { s with turns := rest }
    | .answer c => environmentMove (.answer c) { s with turns := rest }
    | .portSettings p d m => environmentMove (.portSettings p d m) { s with turns := rest }

/-- The state with a table row's word laid where `step` selects its next instruction (log 26). -/
def State.withFetchWord (s : State) (nbits w : Nat) : State := placeWord nbits w s

end Sys2Proof.Machine
end

