-- ==== Sys2Proof/Machine/FrontEnd.lean ====
section
/-!
DEFINITION. Machine/FrontEnd.lean: the host at its boundary with the block (42_interfaces.md): defaults and validation of the
four values, the pseudo-instruction SENDPRESET, and what the host reads back. It is no part of a step.
-/

namespace Sys2Proof.Machine

/-- One argument of the host's command line, as far as the boundary sees it (30_encoding.md rule R89; log 28). -/
inductive HostArg where
  /-- left out -/
  | absent
  /-- an integer -/
  | value (n : Int)
  /-- present but no integer, or an empty numeric suffix -/
  | malformed
  deriving DecidableEq, Repr

/-- The arguments of a session (30_encoding.md rules R89, R90). -/
structure HostArgs where
  cam : HostArg
  preset : HostArg
  baud : HostArg
  port : HostArg
  deriving DecidableEq, Repr

/-- DEFAULT_BAUD (00_scope.md rule R7). -/
def defaultBaud : Int := 2400
/-- DEFAULT_PORT (00_scope.md rule R7). -/
def defaultPort : Int := 3
/-- DEFAULT_CAM (00_scope.md rule R7). -/
def defaultCam : Int := 1

/-- The integer of an argument, the default where it is left out, none where it is malformed (42_interfaces.md rule R152). -/
def argOr (default : Int) : HostArg → Option Int
  | .absent => some default
  | .value n => some n
  | .malformed => none

/-- The integer of an argument that has no default (42_interfaces.md rule R152: the preset). -/
def argRequired : HostArg → Option Int
  | .absent => none
  | .value n => some n
  | .malformed => none

/-- The host's validation (42_interfaces.md rule R151): the input wires to drive, with `start` up, or none for ArgumentError.
The preset is checked before truncation; camera and port are checked for being integers only. -/
def validate (a : HostArgs) : Option HostIn :=
  match argOr defaultCam a.cam, argRequired a.preset, argOr defaultBaud a.baud, argOr defaultPort a.port with
  | some c, some p, some b, some q =>
    if 1 ≤ p ∧ 0 < b then
      some ⟨true, BitVec.ofInt Config.inW c, BitVec.ofInt Config.inW p, BitVec.ofInt Config.inW b, BitVec.ofInt Config.inW q⟩
    else none
  | _, _, _, _ => none

/-- What the front end gives back before the block runs (42_interfaces.md rule R156). -/
inductive FrontEnd where
  /-- a duty failed: error ArgumentError, exit status 1, the block untouched -/
  | rejected (e : Err) (exitStatus : Bool)
  /-- the block with its inputs driven and `start` up -/
  | started (s : State)
  deriving DecidableEq, Repr

/-- SENDPRESET up to the start of the block (30_encoding.md rule R91). -/
def sendPreset (a : HostArgs) (s : State) : FrontEnd :=
  match validate a with
  | none => .rejected .argumentError (exitOf .argumentError)
  | some h => .started { s with inp := h }

/-- The registers the host reads (30_encoding.md rule R81, 42_interfaces.md rule R154). -/
inductive HostReg where
  | done
  | exit
  | err
  | bytesWritten
  | conn
  | pktValid
  | pkt (i : Fin 7)
  deriving DecidableEq, Repr

/-- A value the host reads. -/
inductive HostVal where
  | bit (b : Bool)
  | errCode (c : BitVec 3)
  | connCode (c : BitVec 3)
  | count (n : Count)
  | byte (b : Byte)
  deriving DecidableEq, Repr

/-- A register that may hold ⊥ as the host reads it: ⊥ faults (10_state.md rule R44). -/
def readOr {α : Type} (r : Option α) (n : RegName) (f : α → HostVal) : Except Fault HostVal :=
  match r with
  | none => .error (.unwritten n)
  | some v => .ok (f v)

/-- What the host gets from an output port (42_interfaces.md rules R154, R159). -/
def hostRead (r : HostReg) (s : State) : Except Fault HostVal :=
  match r with
  | .done => .ok (.bit s.done)
  | .exit => readOr s.exit .exit .bit
  | .err => .ok (.errCode (errCode s.err))
  | .bytesWritten => readOr s.bytesWritten .bytesWritten .count
  | .conn => .ok (.connCode (connCode s.conn))
  | .pktValid => .ok (.bit s.pktValid)
  | .pkt i => readOr (pktGet s.pkt i) (.pkt i) .byte

/-- The 56-bit output port `pkt`, PKT[0] in bits 55:48; no value while a byte holds ⊥ (42_interfaces.md rule R159). -/
def pktPort (s : State) : Option (BitVec 56) :=
  match s.pkt with
  | ⟨some b0, some b1, some b2, some b3, some b4, some b5, some b6⟩ => some (packetWord ⟨b0, b1, b2, b3, b4, b5, b6⟩)
  | _ => none

/-- The output port `diag_kind`, none while `diag_valid` is 0 (42_interfaces.md rules R157, R159). -/
def diagKindPort (s : State) : Option (BitVec 2) := s.diagPort.map diagKind

/-- The platform's name of a device: DEV_PREFIX followed by the port number (20_memory.md rule R59; log 3). -/
def deviceName (p : HostInt) : String := Config.devPrefix ++ toString p.toNat

end Sys2Proof.Machine
end

