-- ==== Sys2Proof/Machine/Line.lean ====
section
/-!
DEFINITION. Machine/Line.lean: timeout arithmetic (41_transport.md rule R136), and, PRESUMED from general knowledge as the spec
marks it, the bit-level line (rules R138, R208, R213; log 27). No operation of the block depends on this file.
-/

namespace Sys2Proof.Machine

/-- How long a write of `k` bytes may take, in milliseconds (rule R136). -/
def writeBound (t : Tmo) (k : Nat) : Nat := t.writeConst + t.writeMult * k

/-- How long a read of `k` bytes may take, in milliseconds; the block never reads (rule R136). -/
def readBound (t : Tmo) (k : Nat) : Nat := t.readConst + t.readMult * k

/-- The 10-bit frame of a byte: start bit, data bits least significant first, stop bit (rule R138, PRESUMED). -/
def frame (b : Byte) : List Bool :=
  [false, b.getLsbD 0, b.getLsbD 1, b.getLsbD 2, b.getLsbD 3, b.getLsbD 4, b.getLsbD 5, b.getLsbD 6, b.getLsbD 7, true]

/-- The bits of a byte sequence on the line, without idle time (rule R138, PRESUMED). -/
def lineBits (bs : List Byte) : List Bool := bs.flatMap frame

/-- A packet's line time at a baud rate fits the write bound: bits / baud seconds against milliseconds (rule R208, PRESUMED). -/
def fitsWriteBound (baud : Nat) (k : Packet) : Bool :=
  (lineBits (packetBytes k)).length * 1000 ≤ writeBound tmoCfg pktLen * baud

end Sys2Proof.Machine
end

