-- ==== Sys2Proof/Safety.lean ====
section
/-!
DEFINITION. Safety.lean: what claims say of states: the table of 10_state.md rule R42, the registers that are ready at each
micro-operation (rule R44), the event history of a session (20_memory.md rule R62, 41_transport.md rules R133, R134, R137),
the connection's hold and the table of devices.
-/

namespace Sys2Proof.Safety

open Sys2Proof.Machine

/-- The table of 10_state.md rule R42: UPC, CONN, HANDLE and ERR at a step boundary. -/
def stageTable (s : State) : Bool :=
  match s.upc.toNat with
  | 0 | 1 | 2 => s.conn == .unopened && !s.handle && s.err == .none
  | 3 | 4 | 5 => s.conn == .opened && s.handle && s.err == .none
  | 6 => s.conn == .configured && s.handle && s.err == .none
  | 7 => s.conn == .sent && s.handle && s.err == .none
  | 8 => s.conn == .sent && s.handle && (s.err == .none || s.err == .shortWrite)
  | 9 =>
    s.handle && ((s.conn == .finalized && (s.err == .none || s.err == .shortWrite))
      || (s.conn == .opened && s.err == .configFailed) || (s.conn == .configured && s.err == .writeCallFailed))
  | 10 => s.conn == .closed && !s.handle && s.err != .argumentError
  | _ => false

/-- DONE is 1 exactly in HALT, and EXIT holds a value exactly then, the status of the final error (rules R30, R31, R155). -/
def statusTable (s : State) : Bool :=
  (s.done == (s.upc == upcHalt)) && (s.exit == if s.upc == upcHalt then some (exitOf s.err) else none)

/-- START has loaded its four registers. -/
def loaded (s : State) : Bool := s.cam.isSome && s.preset.isSome && s.baud.isSome && s.port.isSome

/-- The packet buffer holds exactly the packet of CAM and PRESET, and PKT_VALID says so (40_encoder.md rules R100, R115). -/
def built (s : State) : Bool :=
  match s.cam, s.preset with
  | some a, some p => s.pktValid && s.pkt == pktFull (encodePacket a p)
  | _, _ => false

/-- Nothing of a session is in the data registers yet: the ⊥ of reset (10_state.md rule R43). -/
def nothingLoaded (s : State) : Bool := s.cam.isNone && s.preset.isNone && s.baud.isNone && s.port.isNone

/-- The packet buffer holds no value and PKT_VALID says so (10_state.md rule R28). -/
def nothingBuilt (s : State) : Bool := !s.pktValid && s.pkt == PktBuf.empty

/-- Which registers hold a value and which still hold ⊥ at each UPC value: the inputs from ENCODE on, the packet from OPEN on, the
control block from CFG_SET on, the count from VERIFY on (10_state.md rules R20, R28, R43, R44). On the abort path what CLOSE finds
is part of the history below. -/
def ready (s : State) : Bool :=
  match s.upc.toNat with
  | 0 => nothingLoaded s && nothingBuilt s && s.dcb.isNone && s.bytesWritten.isNone
  | 1 => loaded s && nothingBuilt s && s.dcb.isNone && s.bytesWritten.isNone
  | 2 | 3 => loaded s && built s && s.dcb.isNone && s.bytesWritten.isNone
  | 4 | 5 | 6 => loaded s && built s && s.dcb.isSome && s.bytesWritten.isNone
  | 7 | 8 => loaded s && built s && s.dcb.isSome && s.bytesWritten.isSome
  | _ => loaded s && built s

/-- The entries of a session whose configuration succeeded: Open, GetState, SetState, SetTimeouts, all answered Ok. -/
def configured (p : HostInt) (d : Dcb) (b : HostInt) : List Event :=
  [.openPort p true, .getState (some d), .setState (lineSettings b d) true, .setTimeouts tmoCfg true]

/-- The message VERIFY emits for a count: success with the packet, or the partial count (41_transport.md rule R127). -/
def verdict (k : Packet) (n : Count) : Diag := if fullCount n then .success k else .partialWrite n

/-- The error VERIFY leaves for a count. -/
def verdictErr (n : Count) : Err := if fullCount n then .none else .shortWrite

/-- The history of a session that has reached CLOSE on one of its paths, with the DCB, the BYTES_WRITTEN and the ERR it left: a
configuration call was rejected, the write call failed, or the packet was written, verified and flushed. -/
inductive Attempt (a pr : Byte) (p b : HostInt) : Option Dcb → Option Count → Err → List Event → Prop
  /-- GetState was rejected -/
  | getFailed :
      Attempt a pr p b none none .configFailed [.openPort p true, .getState none, .diag (.error .configFailed)]
  /-- SetState was rejected -/
  | setFailed (d : Dcb) :
      Attempt a pr p b (some d) none .configFailed
        [.openPort p true, .getState (some d), .setState (lineSettings b d) false, .diag (.error .configFailed)]
  /-- SetTimeouts was rejected -/
  | timeoutsFailed (d : Dcb) :
      Attempt a pr p b (some (lineSettings b d)) none .configFailed
        [.openPort p true, .getState (some d), .setState (lineSettings b d) true, .setTimeouts tmoCfg false,
          .diag (.error .configFailed)]
  /-- the write call failed -/
  | writeFailed (d : Dcb) :
      Attempt a pr p b (some (lineSettings b d)) none .writeCallFailed
        (configured p d b ++ [.write (encodePacket a pr) none, .diag (.error .writeCallFailed)])
  /-- the write answered with a count -/
  | written (d : Dcb) (n : Count) :
      Attempt a pr p b (some (lineSettings b d)) (some n) (verdictErr n)
        (configured p d b ++ [.write (encodePacket a pr) (some n), .diag (verdict (encodePacket a pr) n), .flush])

/-- The event history at each UPC value (20_memory.md rule R62): what a session has done so far, entry by entry. -/
def history (s : State) : Prop :=
  match s.upc.toNat with
  | 0 | 1 | 2 => s.ev = []
  | 3 => ∃ p, s.port = some p ∧ s.ev = [.openPort p true]
  | 4 => ∃ p d, s.port = some p ∧ s.dcb = some d ∧ s.ev = [.openPort p true, .getState (some d)]
  | 5 => ∃ p d b, s.port = some p ∧ s.baud = some b ∧ s.dcb = some (lineSettings b d) ∧
      s.ev = [.openPort p true, .getState (some d), .setState (lineSettings b d) true]
  | 6 => ∃ p d b, s.port = some p ∧ s.baud = some b ∧ s.dcb = some (lineSettings b d) ∧ s.ev = configured p d b
  | 7 => ∃ a pr p d b n, s.cam = some a ∧ s.preset = some pr ∧ s.port = some p ∧ s.baud = some b ∧
      s.dcb = some (lineSettings b d) ∧ s.bytesWritten = some n ∧
      s.ev = configured p d b ++ [.write (encodePacket a pr) (some n)]
  | 8 => ∃ a pr p d b n, s.cam = some a ∧ s.preset = some pr ∧ s.port = some p ∧ s.baud = some b ∧
      s.dcb = some (lineSettings b d) ∧ s.bytesWritten = some n ∧ s.err = verdictErr n ∧
      s.ev = configured p d b ++ [.write (encodePacket a pr) (some n), .diag (verdict (encodePacket a pr) n)]
  | 9 => ∃ a pr p b, s.cam = some a ∧ s.preset = some pr ∧ s.port = some p ∧ s.baud = some b ∧
      Attempt a pr p b s.dcb s.bytesWritten s.err s.ev
  | 10 => ∃ a pr p b, s.cam = some a ∧ s.preset = some pr ∧ s.port = some p ∧ s.baud = some b ∧
      ((s.dcb = none ∧ s.bytesWritten = none ∧ s.err = .portUnavailable ∧
          s.ev = [.openPort p false, .diag (.error .portUnavailable)]) ∨
        ∃ l, Attempt a pr p b s.dcb s.bytesWritten s.err l ∧ s.ev = l ++ [.close])
  | _ => False

/-- A session's state: the stage table, the status table, the ready registers and the history. -/
def sessionInv (s : State) : Prop :=
  stageTable s = true ∧ statusTable s = true ∧ ready s = true ∧ history s

/-- The connection's hold: HANDLE is 1 exactly while the device side holds a port for the block, that port is PORT's, its
device exists and no other agent holds it (10_state.md rule R27, 20_memory.md rule R61). -/
def holdInv (s : State) : Prop :=
  match s.link with
  | none => s.handle = false
  | some p => s.handle = true ∧ s.port = some p ∧ ∃ d, deviceAt s p = some d ∧ d.heldByOther = false

/-- The transaction code a UPC value issues, if it issues one (opcode table; 30_encoding.md rule R82). -/
def transactionOf (c : BitVec 4) : Option (BitVec 3) :=
  match c.toNat with
  | 2 => some 0
  | 3 => some 1
  | 4 => some 2
  | 5 => some 3
  | 6 => some 4
  | 8 => some 5
  | 9 => some 6
  | _ => none

/-- At a step boundary no answer is on the wires, and a request is up only while its own micro-operation waits for the answer
(00_scope.md rule R12, 42_interfaces.md rule R160). -/
def wiresInv (s : State) : Bool := !s.rsp.valid && (!s.req.valid || transactionOf s.upc == some s.req.op)

/-- Every register of the block is the same in both states (10_state.md rule R20). -/
def sameRegisters (s t : State) : Prop :=
  t.cam = s.cam ∧ t.preset = s.preset ∧ t.pkt = s.pkt ∧ t.baud = s.baud ∧ t.port = s.port ∧ t.dcb = s.dcb ∧
    t.bytesWritten = s.bytesWritten ∧ t.upc = s.upc ∧ t.conn = s.conn ∧ t.handle = s.handle ∧ t.pktValid = s.pktValid ∧
    t.err = s.err ∧ t.done = s.done ∧ t.exit = s.exit

/-- What no device transaction touches: the host's wires, the diagnostic port and whose turn it is. -/
def sameSurroundings (s t : State) : Prop := t.inp = s.inp ∧ t.diagPort = s.diagPort ∧ t.turns = s.turns

/-- An outcome with its next state changed by a function; a stop stays. -/
def mapNext (f : State → State) (o : Result) : Result :=
  match o with
  | .next s => .next (f s)
  | .fault r => .fault r
  | .refused r => .refused r

/-- The transaction code of an event entry, none for a message (30_encoding.md rule R82). -/
def txCode : Event → Option Nat
  | .openPort _ _ => some 0
  | .getState _ => some 1
  | .setState _ _ => some 2
  | .setTimeouts _ _ => some 3
  | .write _ _ => some 4
  | .flush => some 5
  | .close => some 6
  | .diag _ => none

/-- The transactions of a history, in order. -/
def txCodes (l : List Event) : List Nat := l.filterMap txCode

/-- An entry that records a transaction answered Fail (00_scope.md rule R12). -/
def failed : Event → Bool
  | .openPort _ ok => !ok
  | .getState a => a.isNone
  | .setState _ ok => !ok
  | .setTimeouts _ ok => !ok
  | .write _ a => a.isNone
  | .flush => false
  | .close => false
  | .diag _ => false

/-- The messages of a history, in order. -/
def messages (l : List Event) : List Diag :=
  l.filterMap fun e => match e with
    | .diag m => some m
    | _ => none

/-- The bytes a device has taken and not dropped, in the order taken: what is on the line and then what is queued. -/
def taken (d : Device) : List Byte := d.line ++ d.txq

end Sys2Proof.Safety
end

