-- ==== Sys2Proof/Certificates/Slice0/Obligations.lean ====
section
/-!
DEFINITION. Certificates/Slice0/Obligations.lean: the statements for the provers. Each docstring names the rules it formalises;
"log n" names the entry of notes/assumptions where a clause rests on a choice of the model.
-/

open Sys2Proof Sys2Proof.Machine Sys2Proof.Safety

/-! ## Reset, the step and the micro-program counter -/

/-- 10_state.md rule R43: what reset leaves in every register of the block; ⊥ is "holds no value". -/
def Obligations.ResetLeavesTheTable : Prop :=
  State.reset.upc = 0 ∧ State.reset.conn = .unopened ∧ State.reset.handle = false ∧ State.reset.pktValid = false ∧
    State.reset.err = .none ∧ State.reset.done = false ∧ State.reset.exit = none ∧ State.reset.cam = none ∧
    State.reset.preset = none ∧ State.reset.baud = none ∧ State.reset.port = none ∧
    (∀ i, pktGet State.reset.pkt i = none) ∧ State.reset.dcb = none ∧ State.reset.bytesWritten = none ∧ State.reset.ev = []

/-- 70_reset_and_hazards.md rule R200: reset, where it is allowed, puts every register into its reset value, empties EV and does
not touch the device side. -/
def Obligations.ResetKeepsTheDevice : Prop :=
  ∀ (s : State) (rest : List Turn), s.turns = .reset :: rest → (s.upc = upcIdle ∨ s.upc = upcHalt) →
    ∃ t, step s = .next t ∧ sameRegisters State.reset t ∧ t.ev = [] ∧ t.devs = s.devs ∧ t.link = s.link ∧ t.inp = s.inp

/-- 93_implementation_defined.md U12, 42_interfaces.md rule R158: a reset during a session is refused. -/
def Obligations.ResetDuringASessionIsRefused : Prop :=
  ∀ (s : State) (rest : List Turn), s.turns = .reset :: rest → s.upc ≠ upcIdle → s.upc ≠ upcHalt →
    step s = .refused .resetDuringSession

/-- 00_scope.md rule R15: when UPC decodes to a micro-operation and it is the sequencer's move, the step is exec of it; the
sequencer's turn is taken off the model's list of turns (log 21). -/
def Obligations.StepRunsTheDecodedMicroOp : Prop :=
  ∀ (s : State) (i : Instr), decodeUpc s.upc = .ok i →
    (s.turns = [] → step s = exec i s) ∧
    (∀ rest, s.turns = .sequencer :: rest → step s = exec i { s with turns := rest })

/-- 30_encoding.md rule R84: each UPC code selects the one micro-operation of its name. -/
def Obligations.UpcCodesSelectTheMicroOps : Prop :=
  ∀ s : State, s.turns = [] →
    (s.upc.toNat = 0 → step s = exec .start s) ∧ (s.upc.toNat = 1 → step s = exec .encode s) ∧
    (s.upc.toNat = 2 → step s = exec .openPort s) ∧ (s.upc.toNat = 3 → step s = exec .cfgGet s) ∧
    (s.upc.toNat = 4 → step s = exec .cfgSet s) ∧ (s.upc.toNat = 5 → step s = exec .cfgTmo s) ∧
    (s.upc.toNat = 6 → step s = exec .send s) ∧ (s.upc.toNat = 7 → step s = exec .verify s) ∧
    (s.upc.toNat = 8 → step s = exec .finalize s) ∧ (s.upc.toNat = 9 → step s = exec .close s) ∧
    (s.upc.toNat = 10 → step s = exec .halt s)

/-- 30_encoding.md rule R86: a step at a UPC code from 11 to 15 is refused. -/
def Obligations.UpcCodesFromElevenAreRefused : Prop :=
  ∀ s : State, s.turns = [] → 11 ≤ s.upc.toNat → step s = .refused (.noSuchMicroOp s.upc)

/-! ## START and the input registers -/

/-- 30_encoding.md rule R73 (and the pseudocode of 41_transport.md rule R120): with the strobe up START loads the four registers,
CAM and PRESET with the low 8 bits of the two's-complement inputs, the two others whole, and goes to ENCODE. -/
def Obligations.StartSamplesAndTruncates : Prop :=
  ∀ s : State, s.inp.start = true →
    exec .start s =
      .next { s with
        cam := some (BitVec.ofInt 8 s.inp.camIn.toInt), preset := some (BitVec.ofInt 8 s.inp.presetIn.toInt),
        baud := some s.inp.baudIn, port := some s.inp.portIn, upc := upcEncode }

/-- 41_transport.md rules R120, R130: in IDLE without the strobe, and in HALT, the sequencer has no step; in the model the state
stays as it is (log 6). -/
def Obligations.IdleAndHaltStay : Prop :=
  ∀ s : State, (s.inp.start = false → exec .start s = .next s) ∧ exec .halt s = .next s

/-- 10_state.md rule R33: CAM, PRESET, BAUD and PORT are written by START and by nothing else, and no other instruction sees the
input wires: with other values on them it does the same. -/
def Obligations.InputsAreSampledByStartOnly : Prop :=
  ∀ (i : Instr) (s : State), i ≠ .start →
    (∀ t, exec i s = .next t → t.cam = s.cam ∧ t.preset = s.preset ∧ t.baud = s.baud ∧ t.port = s.port) ∧
    (∀ h, exec i { s with inp := h } = mapNext (fun t => { t with inp := h }) (exec i s))

/-! ## The Packet Encoder -/

/-- 40_encoder.md rule R100: ENCODE writes the seven bytes and PKT_VALID and goes to OPEN; nothing else changes. -/
def Obligations.EncodeBuildsThePacket : Prop :=
  ∀ (s : State) (a p : Byte), s.cam = some a → s.preset = some p →
    exec .encode s =
      .next { s with
        pkt := ⟨some 0xFF, some a, some 0x00, some 0x07, some 0x00, some p,
          some (BitVec.ofNat 8 ((a.toNat + 0 + 7 + 0 + p.toNat) % 256))⟩,
        pktValid := true, upc := upcOpen }

/-- 40_encoder.md rules R101, R103, R104, R105: the four constant lanes write their byte and nothing else. That a lane
run alone changes nothing else, UPC included, is the model's reading (log 9). -/
def Obligations.ConstantLanesWriteTheirByte : Prop :=
  ∀ s : State,
    exec .laneSync s = .next { s with pkt := { s.pkt with r0 := some 0xFF } } ∧
    exec .laneCmd1 s = .next { s with pkt := { s.pkt with r2 := some 0x00 } } ∧
    exec .laneCmd2 s = .next { s with pkt := { s.pkt with r3 := some 0x07 } } ∧
    exec .laneData1 s = .next { s with pkt := { s.pkt with r4 := some 0x00 } }

/-- 40_encoder.md rules R102, R106: the two operand lanes copy CAM and PRESET and change nothing else. That a lane run alone changes
nothing else, UPC included, is the model's reading (log 9). -/
def Obligations.OperandLanesCopyTheirRegister : Prop :=
  ∀ (s : State) (v : Byte),
    (s.cam = some v → exec .laneAddr s = .next { s with pkt := { s.pkt with r1 := some v } }) ∧
    (s.preset = some v → exec .laneData2 s = .next { s with pkt := { s.pkt with r5 := some v } })

/-- 40_encoder.md rule R107: the checksum lane writes the sum of the five bytes in the buffer modulo 256 and nothing else; for a
packet the integer sum is from 7 to 517, the byte is 0x00 exactly when CAM + PRESET is 249 or 505, 0xFF when it is 248 or 504.
That the lane can run alone, on any buffer, is the model's reading (log 9). -/
def Obligations.ChecksumLaneSumsTheBuffer : Prop :=
  (∀ (s : State) (b1 b2 b3 b4 b5 : Byte),
    s.pkt.r1 = some b1 → s.pkt.r2 = some b2 → s.pkt.r3 = some b3 → s.pkt.r4 = some b4 → s.pkt.r5 = some b5 →
      exec .laneChk s =
        .next { s with
          pkt := { s.pkt with
            r6 := some (BitVec.ofNat 8 ((b1.toNat + b2.toNat + b3.toNat + b4.toNat + b5.toNat) % 256)) } }) ∧
  (∀ a p : Byte,
    7 ≤ a.toNat + 0 + 7 + 0 + p.toNat ∧ a.toNat + 0 + 7 + 0 + p.toNat ≤ 517 ∧
    ((encodePacket a p).b6 = 0x00 ↔ a.toNat + p.toNat = 249 ∨ a.toNat + p.toNat = 505) ∧
    ((encodePacket a p).b6 = 0xFF ↔ a.toNat + p.toNat = 248 ∨ a.toNat + p.toNat = 504))

/-- 40_encoder.md rule R109: the closed form of the checksum ENCODE leaves in PKT[6]. -/
def Obligations.ChecksumHasAClosedForm : Prop :=
  ∀ (s : State) (a p : Byte), s.cam = some a → s.preset = some p →
    ∃ t c, exec .encode s = .next t ∧ t.pkt.r6 = some c ∧ c.toNat = (a.toNat + p.toNat + 7) % 256

/-- 30_encoding.md rules R70, R75, 40_encoder.md rule R100: a well-formed CALL_PRESET has ENCODE's effect with its own operands;
with any other checksum byte it is refused. That a packet run as an instruction has this meaning is the model's (log 8). -/
def Obligations.CallPresetBuildsItsPacket : Prop :=
  ∀ (s : State) (a p c : Byte),
    (c.toNat = (a.toNat + p.toNat + 7) % 256 →
      exec (.callPreset a p c) s =
        .next { s with
          pkt := ⟨some 0xFF, some a, some 0x00, some 0x07, some 0x00, some p, some c⟩, pktValid := true, upc := upcOpen }) ∧
    (c.toNat ≠ (a.toNat + p.toNat + 7) % 256 → exec (.callPreset a p c) s = .refused (.malformedPacket c))

/-- 30_encoding.md rule R75: a sequence of seven bytes is well formed exactly by the five clauses, and the well-formed packets are
exactly those ENCODE produces from CAM = b[1] and PRESET = b[5]. -/
def Obligations.WellFormedPacketsAreTheEncodedOnes : Prop :=
  ∀ k : Packet,
    (k.wellFormed = true ↔
      k.b0 = 0xFF ∧ k.b2 = 0x00 ∧ k.b3 = 0x07 ∧ k.b4 = 0x00 ∧
        k.b6.toNat = (k.b1.toNat + k.b2.toNat + k.b3.toNat + k.b4.toNat + k.b5.toNat) % 256) ∧
    (k.wellFormed = true ↔ k = encodePacket k.b1 k.b5)

/-- 40_encoder.md rule R111: the packet START and then ENCODE produce from host integers a and q is that of a mod 256 and
q mod 256, for negative integers too. -/
def Obligations.PacketDependsOnInputsModulo256 : Prop :=
  ∀ (s s' : State) (a q : Int), s.inp.start = true → s'.inp.start = true →
    s.inp.camIn = BitVec.ofInt Config.inW a → s.inp.presetIn = BitVec.ofInt Config.inW q →
    s'.inp.camIn = BitVec.ofInt Config.inW (a % 256) → s'.inp.presetIn = BitVec.ofInt Config.inW (q % 256) →
    ∃ t u t' u', exec .start s = .next t ∧ exec .encode t = .next u ∧ exec .start s' = .next t' ∧ exec .encode t' = .next u' ∧
      u.pkt = u'.pkt ∧ u.pkt = pktFull (encodePacket (BitVec.ofInt 8 (a % 256)) (BitVec.ofInt 8 (q % 256)))

/-- 40_encoder.md rule R113: recomputing the checksum after changing one of bytes 1 to 5 changes it; two packets have the same
checksum exactly when their sums agree modulo 256; byte 6 is not read. -/
def Obligations.ChecksumSeesEverySingleChange : Prop :=
  ∀ (k : Packet) (v : Byte),
    (v ≠ k.b1 → checksum { k with b1 := v } ≠ checksum k) ∧ (v ≠ k.b2 → checksum { k with b2 := v } ≠ checksum k) ∧
    (v ≠ k.b3 → checksum { k with b3 := v } ≠ checksum k) ∧ (v ≠ k.b4 → checksum { k with b4 := v } ≠ checksum k) ∧
    (v ≠ k.b5 → checksum { k with b5 := v } ≠ checksum k) ∧ checksum { k with b6 := v } = checksum k ∧
    (∀ j : Packet, checksum j = checksum k ↔
      (j.b1.toNat + j.b2.toNat + j.b3.toNat + j.b4.toNat + j.b5.toNat) % 256 =
        (k.b1.toNat + k.b2.toNat + k.b3.toNat + k.b4.toNat + k.b5.toNat) % 256)

/-- 40_encoder.md rule R115, 20_memory.md rule R66: no micro-operation but ENCODE and no device transaction writes the packet
buffer. -/
def Obligations.PacketIsImmutableOnceBuilt : Prop :=
  ∀ (i : Instr) (s t : State), (formatOf i = .upc4 ∧ i ≠ .encode) ∨ formatOf i = .devop3 → exec i s = .next t →
    t.pkt = s.pkt ∧ t.pktValid = s.pktValid

/-! ## The Transport Sender

In each, `c` is what the device will answer with and `rest` what it will answer later; the request wires keep the operation and
the payload, both valid wires are down at the end, and an answer wire that the answer does not drive keeps its value (logs 11, 38). -/

/-- 41_transport.md rule R121. The connection is free in the Ok clause: the model lets a device refuse a second one (log 14). -/
def Obligations.OpenFollowsTheAnswer : Prop :=
  ∀ (s : State) (p : HostInt) (c : DevChoice) (rest : List DevChoice), s.port = some p → s.answers = c :: rest →
    (c.ok = true → s.link = none → (∃ d, deviceAt s p = some d ∧ d.heldByOther = false) →
      exec .openPort s =
        .next { s with
          handle := true, conn := .opened, upc := upcCfgGet, link := some p, ev := s.ev ++ [.openPort p true],
          req := { s.req with valid := false, op := 0, port := p }, rsp := { s.rsp with valid := false, ok := true },
          answers := rest }) ∧
    (c.ok = false ∨ deviceAt s p = none ∨ (∃ d, deviceAt s p = some d ∧ d.heldByOther = true) →
      exec .openPort s =
        .next { s with
          err := .portUnavailable, conn := .closed, exit := some true, done := true, upc := upcHalt,
          ev := s.ev ++ [.openPort p false, .diag (.error .portUnavailable)], diagPort := some (.error .portUnavailable),
          req := { s.req with valid := false, op := 0, port := p }, rsp := { s.rsp with valid := false, ok := false },
          answers := rest })

/-- 41_transport.md rule R123: on Ok the device's control block is taken whole; on Fail ConfigFailed is raised. -/
def Obligations.CfgGetFollowsTheAnswer : Prop :=
  ∀ (s : State) (p : HostInt) (d : Device) (c : DevChoice) (rest : List DevChoice),
    s.handle = true → s.link = some p → deviceAt s p = some d → s.answers = c :: rest →
    (c.ok = true →
      exec .cfgGet s =
        .next { s with
          dcb := some d.dcb, upc := upcCfgSet, ev := s.ev ++ [.getState (some d.dcb)],
          req := { s.req with valid := false, op := 1 }, rsp := { s.rsp with valid := false, ok := true, dcb := d.dcb },
          answers := rest }) ∧
    (c.ok = false →
      exec .cfgGet s =
        .next { s with
          err := .configFailed, upc := upcClose, ev := s.ev ++ [.getState none, .diag (.error .configFailed)],
          diagPort := some (.error .configFailed), req := { s.req with valid := false, op := 1 },
          rsp := { s.rsp with valid := false, ok := false }, answers := rest })

/-- 41_transport.md rule R124: the control block as read goes back with exactly the four owned fields set, `other` as read; DCB is
written on Ok only. On the device side the linked device has the record after Ok, and a record between the two after
Fail, field by field in the model's reading (log 16). -/
def Obligations.CfgSetFollowsTheAnswer : Prop :=
  ∀ (s : State) (p b : HostInt) (d d' : Dcb) (v : Device) (c : DevChoice) (rest : List DevChoice),
    s.handle = true → s.link = some p → deviceAt s p = some v → s.answers = c :: rest → s.dcb = some d → s.baud = some b →
    d' = { baud := b, byteSize := 8, stopBits := .one, parity := .none, other := d.other } →
    (c.ok = true →
      exec .cfgSet s =
        .next { s with
          dcb := some d', upc := upcCfgTmo, ev := s.ev ++ [.setState d' true],
          req := { s.req with valid := false, op := 2, dcb := d' }, rsp := { s.rsp with valid := false, ok := true },
          devs := devModify p.toNat (fun x => { x with dcb := d' }) s.devs, answers := rest }) ∧
    (c.ok = false →
      exec .cfgSet s =
        .next { s with
          err := .configFailed, upc := upcClose, ev := s.ev ++ [.setState d' false, .diag (.error .configFailed)],
          diagPort := some (.error .configFailed), req := { s.req with valid := false, op := 2, dcb := d' },
          rsp := { s.rsp with valid := false, ok := false },
          devs := devModify p.toNat (fun x => { x with dcb := mixDcb c.dcbChanged x.dcb d' }) s.devs, answers := rest })

/-- 41_transport.md rule R125, with the record of 10_state.md rule R32. -/
def Obligations.CfgTmoFollowsTheAnswer : Prop :=
  ∀ (s : State) (p : HostInt) (v : Device) (m : Tmo) (c : DevChoice) (rest : List DevChoice),
    s.handle = true → s.link = some p → deviceAt s p = some v → s.answers = c :: rest →
    m = { readInterval := Config.tReadIntervalMs, readMult := 10, readConst := 50, writeMult := 10, writeConst := 50 } →
    (c.ok = true →
      exec .cfgTmo s =
        .next { s with
          conn := .configured, upc := upcSend, ev := s.ev ++ [.setTimeouts m true],
          req := { s.req with valid := false, op := 3, tmo := m }, rsp := { s.rsp with valid := false, ok := true },
          devs := devModify p.toNat (fun x => { x with tmo := m }) s.devs, answers := rest }) ∧
    (c.ok = false →
      exec .cfgTmo s =
        .next { s with
          err := .configFailed, upc := upcClose, ev := s.ev ++ [.setTimeouts m false, .diag (.error .configFailed)],
          diagPort := some (.error .configFailed), req := { s.req with valid := false, op := 3, tmo := m },
          rsp := { s.rsp with valid := false, ok := false },
          devs := devModify p.toNat (fun x => { x with tmo := c.tmoAfter.getD x.tmo }) s.devs, answers := rest })

/-- 41_transport.md rule R126: one Write of all seven bytes; the count of an Ok is taken whatever it is; a failed call leaves
BYTES_WRITTEN and CONN. On the device side the bytes taken are a prefix (20_memory.md rule R56). -/
def Obligations.SendFollowsTheAnswer : Prop :=
  ∀ (s : State) (p : HostInt) (v : Device) (k : Packet) (c : DevChoice) (rest : List DevChoice),
    s.handle = true → s.link = some p → deviceAt s p = some v → s.answers = c :: rest → s.pkt = pktFull k →
    (c.ok = true →
      exec .send s =
        .next { s with
          bytesWritten := some c.count, conn := .sent, upc := upcVerify, ev := s.ev ++ [.write k (some c.count)],
          req := { s.req with valid := false, op := 4, data := packetWord k },
          rsp := { s.rsp with valid := false, ok := true, count := c.count },
          devs := devModify p.toNat (fun x => { x with txq := x.txq ++ (packetBytes k).take c.count.toNat }) s.devs,
          answers := rest }) ∧
    (c.ok = false →
      exec .send s =
        .next { s with
          err := .writeCallFailed, upc := upcClose, ev := s.ev ++ [.write k none, .diag (.error .writeCallFailed)],
          diagPort := some (.error .writeCallFailed), req := { s.req with valid := false, op := 4, data := packetWord k },
          rsp := { s.rsp with valid := false, ok := false },
          devs := devModify p.toNat (fun x => { x with txq := x.txq ++ (packetBytes k).take c.taken.val }) s.devs,
          answers := rest })

/-- 41_transport.md rules R127, R135: equality with 7 reports success with the packet's bytes; any other count, above 7 included,
is the non-fatal short write with the partial count; both go on to FINALIZE. -/
def Obligations.VerifyComparesWithSeven : Prop :=
  ∀ (s : State) (n : Count), s.bytesWritten = some n →
    (∀ k, n.toNat = 7 → s.pkt = pktFull k →
      exec .verify s =
        .next { s with upc := upcFinalize, ev := s.ev ++ [.diag (.success k)], diagPort := some (.success k) }) ∧
    (n.toNat ≠ 7 →
      exec .verify s =
        .next { s with
          err := .shortWrite, upc := upcFinalize, ev := s.ev ++ [.diag (.partialWrite n)], diagPort := some (.partialWrite n) })

/-- 41_transport.md rule R128, 20_memory.md rules R64, R65: FINALIZE flushes, has no failure and goes to CLOSE; the device
drained its queue to the line or only said so (U6), with any level of dev_rsp_ok (R160). -/
def Obligations.FinalizeFlushesAndGoesOn : Prop :=
  ∀ (s : State) (c : DevChoice) (rest : List DevChoice), s.answers = c :: rest →
    exec .finalize s =
      .next { s with
        conn := .finalized, upc := upcClose, ev := s.ev ++ [.flush], req := { s.req with valid := false, op := 5 },
        rsp := { s.rsp with valid := false, ok := c.ok },
        devs := (modifyLinked (fun x => if c.drained then { x with line := x.line ++ x.txq, txq := [] } else x) s).devs,
        answers := rest }

/-- 41_transport.md rule R129, 42_interfaces.md rule R155: CLOSE releases unconditionally, EXIT is 1 exactly for the four fatal
errors, and the session is over, whatever the level of dev_rsp_ok (R160). -/
def Obligations.CloseReleasesAndReports : Prop :=
  ∀ (s : State) (c : DevChoice) (rest : List DevChoice), s.answers = c :: rest →
    exec .close s =
      .next { s with
        handle := false, conn := .closed, done := true, upc := upcHalt,
        exit := some (decide (s.err = .argumentError ∨ s.err = .portUnavailable ∨ s.err = .configFailed ∨ s.err = .writeCallFailed)),
        link := none, ev := s.ev ++ [.close], req := { s.req with valid := false, op := 6 },
        rsp := { s.rsp with valid := false, ok := c.ok },
        devs := (modifyLinked (fun x => { x with line := x.line ++ keepSent c.sent x.txq, txq := [] }) s).devs,
        answers := rest }

/-- 41_transport.md rule R129: CLOSE is the only instruction that clears HANDLE. -/
def Obligations.OnlyCloseClearsHandle : Prop :=
  ∀ (i : Instr) (s t : State), exec i s = .next t → s.handle = true → t.handle = false → i = .close

/-- 00_scope.md rule R13: an abort records the error and emits it, then goes to CLOSE when the connection is held, else halts
directly as a failing OPEN does (41_transport.md rule R121). -/
def Obligations.RaiseClosesOrHalts : Prop :=
  ∀ (s : State) (e : Err), isFatal e = true →
    (s.handle = true →
      raiseError e s = { s with err := e, upc := upcClose, ev := s.ev ++ [.diag (.error e)], diagPort := some (.error e) }) ∧
    (s.handle = false →
      raiseError e s =
        { s with
          err := e, conn := .closed, exit := some true, done := true, upc := upcHalt, ev := s.ev ++ [.diag (.error e)],
          diagPort := some (.error e) })

/-- 60_exceptions.md rules R176, R177: an abort with the connection held records the error, emits it before the Close, and the
CLOSE it goes to ends the session with EXIT 1; the data registers keep what they held. -/
def Obligations.AbortRecordsClosesAndReports : Prop :=
  ∀ (s : State) (e : Err) (p : HostInt) (c : DevChoice) (rest : List DevChoice),
    (e = .configFailed ∨ e = .writeCallFailed) → s.handle = true → s.link = some p → s.answers = c :: rest →
    (raiseError e s =
      { s with err := e, upc := upcClose, ev := s.ev ++ [.diag (.error e)], diagPort := some (.error e) }) ∧
    ∃ t, exec .close (raiseError e s) = .next t ∧ t.err = e ∧ t.handle = false ∧ t.conn = .closed ∧ t.exit = some true ∧
      t.done = true ∧ t.upc = upcHalt ∧ t.ev = s.ev ++ [.diag (.error e), .close] ∧ t.link = none ∧
      t.cam = s.cam ∧ t.preset = s.preset ∧ t.baud = s.baud ∧ t.port = s.port ∧ t.pkt = s.pkt ∧ t.pktValid = s.pktValid ∧
      t.dcb = s.dcb ∧ t.bytesWritten = s.bytesWritten

/-- 60_exceptions.md rule R185, 93_implementation_defined.md U11: while the device does not answer, each micro-operation with a
transaction waits with its request raised and its payload on the wires, and changes nothing else (log 5). When the device then answers, in a
step of its own, the micro-operation ends as if the answer had been there at once. -/
def Obligations.UnansweredRequestIsHeld : Prop :=
  (∀ (s : State) (c : DevChoice) (rest : List Turn), s.turns = .answer c :: rest →
    step s = .next { s with turns := rest, answers := s.answers ++ [c] }) ∧
  ∀ s : State, s.answers = [] →
    (∀ (i : Instr) (w : State) (c : DevChoice), i ∈ [.openPort, .cfgGet, .cfgSet, .cfgTmo, .send, .finalize, .close] →
      exec i s = .next w → exec i { w with answers := [c] } = exec i { s with answers := [c] }) ∧
    (∀ p, s.port = some p →
      exec .openPort s =
        .next { s with req := { s.req with valid := true, op := 0, port := p }, rsp := { s.rsp with valid := false } }) ∧
    exec .cfgGet s = .next { s with req := { s.req with valid := true, op := 1 }, rsp := { s.rsp with valid := false } } ∧
    (∀ d b, s.dcb = some d → s.baud = some b →
      exec .cfgSet s =
        .next { s with
          req := { s.req with valid := true, op := 2, dcb := lineSettings b d }, rsp := { s.rsp with valid := false } }) ∧
    exec .cfgTmo s =
      .next { s with req := { s.req with valid := true, op := 3, tmo := tmoCfg }, rsp := { s.rsp with valid := false } } ∧
    (∀ k, s.pkt = pktFull k →
      exec .send s =
        .next { s with
          req := { s.req with valid := true, op := 4, data := packetWord k }, rsp := { s.rsp with valid := false } }) ∧
    exec .finalize s = .next { s with req := { s.req with valid := true, op := 5 }, rsp := { s.rsp with valid := false } } ∧
    exec .close s = .next { s with req := { s.req with valid := true, op := 6 }, rsp := { s.rsp with valid := false } }

/-- 10_state.md rule R44: a micro-operation that needs a register holding ⊥ faults; no value is substituted. -/
def Obligations.UnwrittenRegistersFault : Prop :=
  ∀ s : State,
    (s.cam = none → exec .encode s = .fault (.unwritten .cam) ∧ exec .laneAddr s = .fault (.unwritten .cam)) ∧
    (s.cam ≠ none → s.preset = none → exec .encode s = .fault (.unwritten .preset)) ∧
    (s.preset = none → exec .laneData2 s = .fault (.unwritten .preset)) ∧
    (s.port = none → exec .openPort s = .fault (.unwritten .port)) ∧
    (s.dcb = none → exec .cfgSet s = .fault (.unwritten .dcb)) ∧
    (s.dcb ≠ none → s.baud = none → exec .cfgSet s = .fault (.unwritten .baud)) ∧
    (s.bytesWritten = none → exec .verify s = .fault (.unwritten .bytesWritten)) ∧
    ((∃ i, pktGet s.pkt i = none) → ∃ i, pktGet s.pkt i = none ∧ exec .send s = .fault (.unwritten (.pkt i))) ∧
    ((∃ i, 1 ≤ i ∧ i ≤ 5 ∧ pktGet s.pkt i = none) →
      ∃ i, pktGet s.pkt i = none ∧ exec .laneChk s = .fault (.unwritten (.pkt i)))

/-! ## The device transactions

Each says what the row does with the device's answer at hand: the request and the answer on the wires, the one new entry of EV,
the device of the connection, every other port's device, and that no register of the block changes. -/

/-- 60_exceptions.md rule R186: Fail if the device does not exist or is held, or for any reason of the device's; else Ok, and the
port is held. (The Ok clause takes the connection to be free, log 14.) -/
def Obligations.DevOpenAnswers : Prop :=
  ∀ (s : State) (c : DevChoice) (rest : List DevChoice), s.answers = c :: rest →
    ((c.ok = false ∨ deviceAt s s.req.port = none ∨ (∃ d, deviceAt s s.req.port = some d ∧ d.heldByOther = true)) →
      ∃ t, exec .devOpen s = .next t ∧ sameRegisters s t ∧ sameSurroundings s t ∧
        t.req = { s.req with valid := true, op := 0 } ∧ t.answers = rest ∧ t.rsp.valid = true ∧
        t.rsp.ok = false ∧ t.link = s.link ∧ t.devs = s.devs ∧ t.ev = s.ev ++ [.openPort s.req.port false]) ∧
    (c.ok = true → s.link = none → (∃ d, deviceAt s s.req.port = some d ∧ d.heldByOther = false) →
      ∃ t, exec .devOpen s = .next t ∧ sameRegisters s t ∧ sameSurroundings s t ∧
        t.req = { s.req with valid := true, op := 0 } ∧ t.answers = rest ∧ t.rsp.valid = true ∧
        t.rsp.ok = true ∧ t.link = some s.req.port ∧ t.devs = s.devs ∧ t.ev = s.ev ++ [.openPort s.req.port true])

/-- 60_exceptions.md rule R187: GetState gives the current control block or Fail, without side effect; SetState replaces it, or
fails and leaves it between the two; that then each field is the old or the requested one is the model's reading (log 16). -/
def Obligations.DevStateIsReadAndReplaced : Prop :=
  ∀ (s : State) (p : HostInt) (d : Device) (c : DevChoice) (rest : List DevChoice),
    s.link = some p → deviceAt s p = some d → s.answers = c :: rest →
    (∃ t, exec .devGetState s = .next t ∧ sameRegisters s t ∧ sameSurroundings s t ∧
        t.req = { s.req with valid := true, op := 1 } ∧ t.answers = rest ∧ t.devs = s.devs ∧
      t.link = s.link ∧ t.rsp.valid = true ∧ t.rsp.ok = c.ok ∧ (c.ok = true → t.rsp.dcb = d.dcb) ∧
      t.ev = s.ev ++ [.getState (if c.ok then some d.dcb else none)]) ∧
    (∃ t d', exec .devSetState s = .next t ∧ sameRegisters s t ∧ sameSurroundings s t ∧
        t.req = { s.req with valid := true, op := 2 } ∧ t.answers = rest ∧ t.link = s.link ∧
      t.rsp.valid = true ∧ t.rsp.ok = c.ok ∧ t.ev = s.ev ++ [.setState s.req.dcb c.ok] ∧
      deviceAt t p = some { d with dcb := d' } ∧ (∀ q, q ≠ p → deviceAt t q = deviceAt s q) ∧
      (c.ok = true → d' = s.req.dcb) ∧
      (d'.baud = d.dcb.baud ∨ d'.baud = s.req.dcb.baud) ∧ (d'.byteSize = d.dcb.byteSize ∨ d'.byteSize = s.req.dcb.byteSize) ∧
      (d'.stopBits = d.dcb.stopBits ∨ d'.stopBits = s.req.dcb.stopBits) ∧
      (d'.parity = d.dcb.parity ∨ d'.parity = s.req.dcb.parity) ∧ (d'.other = d.dcb.other ∨ d'.other = s.req.dcb.other))

/-- 60_exceptions.md rule R188: SetTimeouts replaces the settings, or fails; only the timeout settings can change. -/
def Obligations.DevTimeoutsAreReplaced : Prop :=
  ∀ (s : State) (p : HostInt) (d : Device) (c : DevChoice) (rest : List DevChoice),
    s.link = some p → deviceAt s p = some d → s.answers = c :: rest →
    ∃ t m, exec .devSetTimeouts s = .next t ∧ sameRegisters s t ∧ sameSurroundings s t ∧
        t.req = { s.req with valid := true, op := 3 } ∧ t.answers = rest ∧ t.link = s.link ∧
      t.rsp.valid = true ∧ t.rsp.ok = c.ok ∧ t.ev = s.ev ++ [.setTimeouts s.req.tmo c.ok] ∧
      deviceAt t p = some { d with tmo := m } ∧ (∀ q, q ≠ p → deviceAt t q = deviceAt s q) ∧ (c.ok = true → m = s.req.tmo)

/-- 60_exceptions.md rule R189, 20_memory.md rule R56: on Ok(n) the first n bytes are queued, all seven for n above 7; on Fail
some prefix of length 0 to 7. -/
def Obligations.DevWriteQueuesAPrefix : Prop :=
  ∀ (s : State) (p : HostInt) (d : Device) (k : Packet) (c : DevChoice) (rest : List DevChoice),
    s.link = some p → deviceAt s p = some d → s.answers = c :: rest → s.req.data = packetWord k →
    ∃ t n, exec .devWrite s = .next t ∧ sameRegisters s t ∧ sameSurroundings s t ∧
        t.req = { s.req with valid := true, op := 4 } ∧ t.answers = rest ∧ t.link = s.link ∧
      t.rsp.valid = true ∧ t.rsp.ok = c.ok ∧ t.ev = s.ev ++ [.write k (if c.ok then some c.count else none)] ∧
      deviceAt t p = some { d with txq := d.txq ++ [k.b0, k.b1, k.b2, k.b3, k.b4, k.b5, k.b6].take n } ∧
      (∀ q, q ≠ p → deviceAt t q = deviceAt s q) ∧ n ≤ 7 ∧
      (c.ok = true → t.rsp.count = c.count ∧ n = min c.count.toNat 7)

/-- 60_exceptions.md rule R191: Flush answers Done, and has then drained the queue to the line in order, or only says so. -/
def Obligations.DevFlushDrainsOrSaysSo : Prop :=
  ∀ (s : State) (p : HostInt) (d : Device) (c : DevChoice) (rest : List DevChoice),
    s.link = some p → deviceAt s p = some d → s.answers = c :: rest →
    ∃ t, exec .devFlush s = .next t ∧ sameRegisters s t ∧ sameSurroundings s t ∧
        t.req = { s.req with valid := true, op := 5 } ∧ t.answers = rest ∧ t.link = s.link ∧
      t.rsp.valid = true ∧ t.ev = s.ev ++ [.flush] ∧ (∀ q, q ≠ p → deviceAt t q = deviceAt s q) ∧
      (c.drained = true → deviceAt t p = some { d with line := d.line ++ d.txq, txq := [] }) ∧
      (c.drained = false → deviceAt t p = some d)

/-- 60_exceptions.md rule R192, 70_reset_and_hazards.md rule R211: Close answers Done, the port is no longer held, the bytes still
queued are sent in order or dropped, and the settings stay as last set (log 35). -/
def Obligations.DevCloseReleasesTheHold : Prop :=
  ∀ (s : State) (p : HostInt) (d : Device) (c : DevChoice) (rest : List DevChoice),
    s.link = some p → deviceAt s p = some d → s.answers = c :: rest →
    ∃ t l, exec .devClose s = .next t ∧ sameRegisters s t ∧ sameSurroundings s t ∧
        t.req = { s.req with valid := true, op := 6 } ∧ t.answers = rest ∧ t.link = none ∧
      t.rsp.valid = true ∧ t.ev = s.ev ++ [.close] ∧ (∀ q, q ≠ p → deviceAt t q = deviceAt s q) ∧
      deviceAt t p = some { d with line := d.line ++ l, txq := [] } ∧ l.Sublist d.txq ∧
      (c.sent = d.txq.map (fun _ => true) → l = d.txq) ∧ (c.sent = [] → l = [])

/-- The model's own choice (log 14, log 15): a second Open is answered Fail; without a connection GetState, SetState, SetTimeouts
and Write are answered Fail and Flush and Close Done; no device changes. -/
def Obligations.TransactionsOutsideTheConnection : Prop :=
  ∀ (s : State) (c : DevChoice) (rest : List DevChoice), s.answers = c :: rest →
    (s.link ≠ none → ∃ t, exec .devOpen s = .next t ∧ sameRegisters s t ∧ t.rsp.valid = true ∧ t.rsp.ok = false ∧
      t.link = s.link ∧ t.devs = s.devs ∧ t.ev = s.ev ++ [.openPort s.req.port false]) ∧
    (s.link = none →
      (∃ t, exec .devGetState s = .next t ∧ sameRegisters s t ∧ t.rsp.valid = true ∧ t.rsp.ok = false ∧ t.devs = s.devs ∧
        t.ev = s.ev ++ [.getState none]) ∧
      (∃ t, exec .devSetState s = .next t ∧ sameRegisters s t ∧ t.rsp.valid = true ∧ t.rsp.ok = false ∧ t.devs = s.devs ∧
        t.ev = s.ev ++ [.setState s.req.dcb false]) ∧
      (∃ t, exec .devSetTimeouts s = .next t ∧ sameRegisters s t ∧ t.rsp.valid = true ∧ t.rsp.ok = false ∧ t.devs = s.devs ∧
        t.ev = s.ev ++ [.setTimeouts s.req.tmo false]) ∧
      (∃ t, exec .devWrite s = .next t ∧ sameRegisters s t ∧ t.rsp.valid = true ∧ t.rsp.ok = false ∧ t.devs = s.devs ∧
        t.ev = s.ev ++ [.write (packetOfWord s.req.data) none]) ∧
      (∃ t, exec .devFlush s = .next t ∧ sameRegisters s t ∧ t.rsp.valid = true ∧ t.devs = s.devs ∧
        t.link = none ∧ t.ev = s.ev ++ [.flush]) ∧
      ∃ t, exec .devClose s = .next t ∧ sameRegisters s t ∧ t.rsp.valid = true ∧ t.devs = s.devs ∧
        t.link = none ∧ t.ev = s.ev ++ [.close])

/-! ## The environment's moves -/

/-- 60_exceptions.md rule R190, 20_memory.md rule R63: the drain moves the byte at the head of a port's queue to the end of its
line; no byte is lost, reordered or repeated, no other port changes and the block sees nothing of it. -/
def Obligations.DrainMovesTheHeadByte : Prop :=
  ∀ (s : State) (p : HostInt) (d : Device) (rest : List Turn), s.turns = .drain p :: rest → deviceAt s p = some d →
    ∃ t d', step s = .next t ∧ deviceAt t p = some d' ∧ (∀ q, q ≠ p → deviceAt t q = deviceAt s q) ∧
      (∀ b q, d.txq = b :: q → d'.txq = q ∧ d'.line = d.line ++ [b]) ∧ (d.txq = [] → d' = d) ∧ taken d' = taken d ∧
      sameRegisters s t ∧ t.ev = s.ev ∧ t.link = s.link ∧ t.req = s.req ∧ t.rsp = s.rsp

/-- 20_memory.md rule R61, 70_reset_and_hazards.md rule R209: while the block's connection holds a port another agent's attempt to
open it, or to change its settings (log 35), changes nothing; while another agent holds a port, the block's
Open of it fails with PortUnavailable. -/
def Obligations.HoldIsExclusive : Prop :=
  (∀ (s : State) (p : HostInt) (rest : List Turn), s.turns = .otherOpen p :: rest → s.link = some p →
    step s = .next { s with turns := rest }) ∧
  (∀ (s : State) (p : HostInt) (d : Dcb) (m : Tmo) (rest : List Turn), s.turns = .portSettings p d m :: rest → s.link = some p →
    step s = .next { s with turns := rest }) ∧
  (∀ (s : State) (p : HostInt) (d : Device) (c : DevChoice) (rest : List Turn) (more : List DevChoice),
    s.turns = .otherOpen p :: rest → s.link = none → deviceAt s p = some d → s.port = some p → s.answers = c :: more →
    ∃ t u, step s = .next t ∧ exec .openPort t = .next u ∧ u.err = .portUnavailable ∧ u.upc = upcHalt ∧
      u.ev = s.ev ++ [.openPort p false, .diag (.error .portUnavailable)])

/-! ## Encodings -/

/-- 30_encoding.md rules R70, R84, R87, R82: decoding an encoded well-formed instruction gives it back, as a word and as bytes,
with every operand at every value. -/
def Obligations.DecodeOfEncodeIsTheInstruction : Prop :=
  ∀ i : Instr, i.wellFormed = true →
    decodeWord (formatOf i) (encode i) = .ok i ∧ decodeBytes (formatOf i) (encodeBytes i) = .ok i

/-- 30_encoding.md rules R71, R75, R82, R86, R87: a word that decodes is the word of what it decodes to, which is well formed and
of that format: each word has at most one meaning and no bit is ignored. -/
def Obligations.EncodeOfDecodeIsTheWord : Prop :=
  ∀ (f : Format) (w : Nat) (i : Instr), decodeWord f w = .ok i → i.wellFormed = true ∧ formatOf i = f ∧ encode i = w

/-- 30_encoding.md rule R71: a 56-bit number is a call-preset packet exactly when it passes the match under the mask and its field
c is a + p + 7 modulo 256. -/
def Obligations.PacketsAreMaskMatchAndChecksum : Prop :=
  ∀ w : BitVec 56,
    (∃ i, decodeWord .pkt7 w.toNat = .ok i) ↔
      w &&& 0xFF00FFFFFF0000#56 = 0xFF000007000000#56 ∧
        (w.extractLsb' 0 8).toNat = ((w.extractLsb' 40 8).toNat + (w.extractLsb' 8 8).toNat + 7) % 256

/-- 95_test_vectors.md section 6, programs P1 and P5, and the codes of rules R84, R87, R82: words written out from the spec decode
to what they stand for, and the spec's ill-formed rows are rejected by name (section 2.3). -/
def Obligations.SpecWordsDecode : Prop :=
  decodeWord .pkt7 0xFF010007000109 = .ok (.callPreset 0x01 0x01 0x09) ∧
    decodeWord .pkt7 0xFFFF000700FF05 = .ok (.callPreset 0xFF 0xFF 0x05) ∧
    decodeWord .pkt7 0xFF01000700010A = .error .badChecksum ∧ decodeWord .pkt7 0xFF010008000109 = .error .badCmd2 ∧
    decodeWord .upc4 0b0110 = .ok .send ∧ decodeWord .upc4 0b1011 = .error .noMicroOp ∧
    decodeWord .lane3 0b110 = .ok .laneChk ∧ decodeWord .lane3 0b111 = .error .noLane ∧
    decodeWord .devop3 0b100 = .ok .devWrite ∧ decodeWord .devop3 0b111 = .error .noTransaction

/-! ## Invariants of every step -/

/-- 10_state.md rule R42: UPC, CONN, HANDLE and ERR stay related as in the table, whoever moves. -/
def Obligations.EveryStepKeepsTheStageTable : Prop :=
  ∀ s t : State, stageTable s = true → step s = .next t → stageTable t = true

/-- Every invariant below holds at reset. -/
def Obligations.ResetMeetsTheInvariants : Prop :=
  sessionInv State.reset ∧ holdInv State.reset ∧ wiresInv State.reset = true ∧ devsWf State.reset.devs = true

/-- 10_state.md rules R28 to R31, R42, 20_memory.md rule R62, 40_encoder.md rule R115: every step keeps the whole session
invariant: the stage table, DONE and EXIT, the ready registers, the packet built from CAM and PRESET, and the event history of
the path taken. -/
def Obligations.EveryStepKeepsTheSessionInvariant : Prop :=
  ∀ s t : State, sessionInv s → step s = .next t → sessionInv t

/-- 10_state.md rule R44: in a state that meets the session invariant no step reads a register that holds ⊥, so no step faults,
and the only refusal is that of a reset during a session. -/
def Obligations.NoStepOfASessionFaults : Prop :=
  ∀ s : State, sessionInv s → (∀ f, step s ≠ .fault f) ∧ (∀ r, step s = .refused r → r = .resetDuringSession)

/-- 10_state.md rule R27, 20_memory.md rule R61: HANDLE is 1 exactly while the device side holds a port for the block, which is
PORT's, exists, and is held by no other agent. (That a port does not go away while it is held is the model's choice, log 36.) -/
def Obligations.EveryStepKeepsTheHold : Prop :=
  ∀ s t : State, stageTable s = true → holdInv s → step s = .next t → holdInv t

/-- 42_interfaces.md rule R160, 00_scope.md rule R12: at most one request is up, it is that of the waiting micro-operation, and no
answer is left on the wires. -/
def Obligations.EveryStepKeepsTheWires : Prop :=
  ∀ s t : State, wiresInv s = true → step s = .next t → wiresInv t = true

/-- The table of devices (10_state.md rule R40) keeps its canonical form and its port numbers, whoever moves, and whatever instruction
runs. That no port appears or goes is the model's choice (log 36). -/
def Obligations.DeviceTableStaysCanonical : Prop :=
  (∀ s t : State, devsWf s.devs = true → step s = .next t → devsWf t.devs = true ∧ t.devs.map Prod.fst = s.devs.map Prod.fst) ∧
  (∀ (i : Instr) (s t : State), devsWf s.devs = true → exec i s = .next t → devsWf t.devs = true)

/-- 20_memory.md rule R62, 41_transport.md rule R134, 42_interfaces.md rule R157: the transactions of a session are Open, GetState,
SetState, SetTimeouts, Write, Flush, Close in this order up to some point, or up to some point and then Close; none is issued
twice; after one that answered Fail there is at most the Close; at most two messages are emitted. -/
def Obligations.TransactionsAreInOrderAndOnce : Prop :=
  ∀ s : State, sessionInv s →
    (∃ k, k ≤ 7 ∧ (txCodes s.ev = List.range k ∨ txCodes s.ev = List.range k ++ [6])) ∧ (txCodes s.ev).Nodup ∧
    (∀ l e r, s.ev = l ++ e :: r → failed e = true → txCodes r = [] ∨ txCodes r = [6]) ∧ (messages s.ev).length ≤ 2

/-- 41_transport.md rule R133: at HALT HANDLE is 0; if Open answered Ok exactly one Close was issued and it is the last entry; if
Open failed none was; a flush was issued on the normal path only. -/
def Obligations.ConnectionIsReleasedOnEveryPath : Prop :=
  ∀ s : State, sessionInv s → s.upc = upcHalt →
    s.handle = false ∧
    ((∃ p, .openPort p true ∈ s.ev) → s.ev.count .close = 1 ∧ s.ev.getLast? = some .close) ∧
    ((∃ p, .openPort p false ∈ s.ev) → .close ∉ s.ev) ∧
    (.flush ∈ s.ev ↔ s.err = .none ∨ s.err = .shortWrite)

/-- 41_transport.md rule R137: every Write of a session presents the packet of CAM and PRESET, and there is at most one. -/
def Obligations.OnePacketIsPresented : Prop :=
  ∀ (s : State) (k : Packet) (n : Option Count), sessionInv s → .write k n ∈ s.ev →
    (∃ a p, s.cam = some a ∧ s.preset = some p ∧ k = encodePacket a p) ∧ (txCodes s.ev).count 4 = 1

/-- 60_exceptions.md rule R185, 30_encoding.md rule R85: started from IDLE with the device's seven answers at hand, whatever they
are, ten sequencer steps end the session in HALT with DONE up and EXIT the status of the error. -/
def Obligations.SessionEndsInTenSteps : Prop :=
  ∀ s : State, sessionInv s → s.upc = upcIdle → s.inp.start = true → s.turns = [] → 7 ≤ s.answers.length →
    ∃ t, Sys2Proof.core.run 10 s = .next t ∧ sessionInv t ∧ t.upc = upcHalt ∧ t.done = true ∧ t.exit = some (exitOf t.err)

/-- 41_transport.md rule R137, 60_exceptions.md rule R193: with the reference device on a free existing port, but for a write that
answers with any count n, ten steps from IDLE end in HALT with EXIT 0 and the count in BYTES_WRITTEN; ERR tells a short write; the
device has the line settings and the timeouts of the block, and what was queued and then the packet's first n bytes are on its line. -/
def Obligations.ReferenceSessionSendsThePacket : Prop :=
  ∀ (s : State) (d : Device) (n : Count), sessionInv s → s.upc = upcIdle → s.turns = [] → s.inp.start = true → s.link = none →
    deviceAt s s.inp.portIn = some d → d.heldByOther = false →
    s.answers = [willing, willing, willing, willing, { willing with count := n }, willing, willing] →
    ∃ t, Sys2Proof.core.run 10 s = .next t ∧ t.upc = upcHalt ∧ (t.err = if n.toNat = 7 then .none else .shortWrite) ∧
      t.exit = some false ∧ t.bytesWritten = some n ∧ t.handle = false ∧ t.link = none ∧
      deviceAt t s.inp.portIn = some
        { heldByOther := false, dcb := lineSettings s.inp.baudIn d.dcb, tmo := tmoCfg, txq := [],
          line := d.line ++ d.txq ++
            (packetBytes (encodePacket (trunc8 s.inp.camIn) (trunc8 s.inp.presetIn))).take n.toNat }

/-! ## The host -/

/-- 42_interfaces.md rules R151, R152, R156: the host starts the block exactly when the preset is an integer at least 1, the baud
rate (2400 if left out) is positive and camera (1) and port (3) are integers; else it reports ArgumentError, exit status 1, and
the block is untouched. -/
def Obligations.HostValidatesBeforeStart : Prop :=
  ∀ (s : State) (p : Int) (cam baud port : HostArg),
    (1 ≤ p → ∀ c b q, argOr 1 cam = some c → argOr 2400 baud = some b → argOr 3 port = some q → 0 < b →
      sendPreset ⟨cam, .value p, baud, port⟩ s =
        .started { s with
          inp := ⟨true, BitVec.ofInt Config.inW c, BitVec.ofInt Config.inW p, BitVec.ofInt Config.inW b,
            BitVec.ofInt Config.inW q⟩ }) ∧
    (p < 1 → sendPreset ⟨cam, .value p, baud, port⟩ s = .rejected .argumentError true) ∧
    (∀ b, argOr 2400 baud = some b → b ≤ 0 → sendPreset ⟨cam, .value p, baud, port⟩ s = .rejected .argumentError true) ∧
    (cam = .malformed ∨ baud = .malformed ∨ port = .malformed →
      sendPreset ⟨cam, .value p, baud, port⟩ s = .rejected .argumentError true) ∧
    sendPreset ⟨cam, .absent, baud, port⟩ s = .rejected .argumentError true ∧
    sendPreset ⟨cam, .malformed, baud, port⟩ s = .rejected .argumentError true

/-- 42_interfaces.md rules R154, R155, R159, with the codes of 30_encoding.md rule R83 and of the table of 60_exceptions.md rule
R170: DONE, CONN, ERR and PKT_VALID are readable at any time, CONN and ERR by their codes, and diag_kind is the code of the message
presented; at HALT DONE is 1 and EXIT is 0 for no error and a short write and 1 for every other error, before it EXIT faults;
BYTES_WRITTEN is readable exactly from VERIFY on after a write that answered Ok, and faults else; the packet bytes are readable
exactly from PKT_VALID on, and are the packet's. -/
def Obligations.HostReadsTheResult : Prop :=
  ∀ s : State, sessionInv s →
    ((s.conn = .unopened → hostRead .conn s = .ok (.connCode 0)) ∧ (s.conn = .opened → hostRead .conn s = .ok (.connCode 1)) ∧
      (s.conn = .configured → hostRead .conn s = .ok (.connCode 2)) ∧ (s.conn = .sent → hostRead .conn s = .ok (.connCode 3)) ∧
      (s.conn = .finalized → hostRead .conn s = .ok (.connCode 4)) ∧ (s.conn = .closed → hostRead .conn s = .ok (.connCode 5))) ∧
    ((s.err = .none → hostRead .err s = .ok (.errCode 0)) ∧ (s.err = .argumentError → hostRead .err s = .ok (.errCode 1)) ∧
      (s.err = .portUnavailable → hostRead .err s = .ok (.errCode 2)) ∧
      (s.err = .configFailed → hostRead .err s = .ok (.errCode 3)) ∧
      (s.err = .writeCallFailed → hostRead .err s = .ok (.errCode 4)) ∧
      (s.err = .shortWrite → hostRead .err s = .ok (.errCode 5))) ∧
    ((∀ e, s.diagPort = some (.error e) → diagKindPort s = some 0) ∧
      (∀ k, s.diagPort = some (.success k) → diagKindPort s = some 1) ∧
      (∀ n, s.diagPort = some (.partialWrite n) → diagKindPort s = some 2)) ∧
    hostRead .pktValid s = .ok (.bit s.pktValid) ∧
    (s.upc = upcHalt → hostRead .done s = .ok (.bit true) ∧
      hostRead .exit s = .ok (.bit (decide (s.err ≠ .none ∧ s.err ≠ .shortWrite)))) ∧
    (s.upc ≠ upcHalt → hostRead .done s = .ok (.bit false) ∧ hostRead .exit s = .error (.unwritten .exit)) ∧
    (s.upc = upcVerify ∨ s.upc = upcFinalize ∨ ((s.upc = upcClose ∨ s.upc = upcHalt) ∧ (s.err = .none ∨ s.err = .shortWrite)) →
      ∃ n, s.bytesWritten = some n ∧ hostRead .bytesWritten s = .ok (.count n) ∧
        (s.upc ≠ upcVerify → (n.toNat = 7 ↔ s.err = .none))) ∧
    (¬(s.upc = upcVerify ∨ s.upc = upcFinalize ∨
        ((s.upc = upcClose ∨ s.upc = upcHalt) ∧ (s.err = .none ∨ s.err = .shortWrite))) →
      hostRead .bytesWritten s = .error (.unwritten .bytesWritten)) ∧
    (s.pktValid = true → ∀ i a p, s.cam = some a → s.preset = some p → hostRead (.pkt i) s = .ok (.byte (lane a p i))) ∧
    (s.pktValid = false → ∀ i, hostRead (.pkt i) s = .error (.unwritten (.pkt i)))

/-- 41_transport.md rule R136, 10_state.md rule R32: the bound of a transfer of k bytes is 50 + 10 k milliseconds in each direction,
120 for the packet, whatever the open read interval is. -/
def Obligations.TimeoutBoundIsFiftyPlusTenPerByte : Prop :=
  ∀ k : Nat, writeBound tmoCfg k = 50 + 10 * k ∧ readBound tmoCfg k = 50 + 10 * k ∧ writeBound tmoCfg pktLen = 120 ∧
    tmoCfg.readInterval = Config.tReadIntervalMs
end

