-- ==== Sys2Proof/Laws/State.lean ====
section
/-!
SUPPORT. Laws/State.lean: one lemma per field per update, so that no later proof unfolds a record update.
-/

namespace Sys2Proof.Machine

/-! ### `emit`: a message changes EV and the diagnostic port -/

@[simp] theorem emit_cam (m : Diag) (s : State) : (emit m s).cam = s.cam := rfl
@[simp] theorem emit_preset (m : Diag) (s : State) : (emit m s).preset = s.preset := rfl
@[simp] theorem emit_pkt (m : Diag) (s : State) : (emit m s).pkt = s.pkt := rfl
@[simp] theorem emit_baud (m : Diag) (s : State) : (emit m s).baud = s.baud := rfl
@[simp] theorem emit_port (m : Diag) (s : State) : (emit m s).port = s.port := rfl
@[simp] theorem emit_dcb (m : Diag) (s : State) : (emit m s).dcb = s.dcb := rfl
@[simp] theorem emit_bytesWritten (m : Diag) (s : State) : (emit m s).bytesWritten = s.bytesWritten := rfl
@[simp] theorem emit_upc (m : Diag) (s : State) : (emit m s).upc = s.upc := rfl
@[simp] theorem emit_conn (m : Diag) (s : State) : (emit m s).conn = s.conn := rfl
@[simp] theorem emit_handle (m : Diag) (s : State) : (emit m s).handle = s.handle := rfl
@[simp] theorem emit_pktValid (m : Diag) (s : State) : (emit m s).pktValid = s.pktValid := rfl
@[simp] theorem emit_err (m : Diag) (s : State) : (emit m s).err = s.err := rfl
@[simp] theorem emit_done (m : Diag) (s : State) : (emit m s).done = s.done := rfl
@[simp] theorem emit_exit (m : Diag) (s : State) : (emit m s).exit = s.exit := rfl
@[simp] theorem emit_inp (m : Diag) (s : State) : (emit m s).inp = s.inp := rfl
@[simp] theorem emit_req (m : Diag) (s : State) : (emit m s).req = s.req := rfl
@[simp] theorem emit_rsp (m : Diag) (s : State) : (emit m s).rsp = s.rsp := rfl
@[simp] theorem emit_diagPort (m : Diag) (s : State) : (emit m s).diagPort = some m := rfl
@[simp] theorem emit_ev (m : Diag) (s : State) : (emit m s).ev = s.ev ++ [.diag m] := rfl
@[simp] theorem emit_devs (m : Diag) (s : State) : (emit m s).devs = s.devs := rfl
@[simp] theorem emit_link (m : Diag) (s : State) : (emit m s).link = s.link := rfl
@[simp] theorem emit_answers (m : Diag) (s : State) : (emit m s).answers = s.answers := rfl
@[simp] theorem emit_turns (m : Diag) (s : State) : (emit m s).turns = s.turns := rfl

/-! ### `raiseReq`: raising a request changes the device wires -/

@[simp] theorem raiseReq_cam (op : BitVec 3) (s : State) : (raiseReq op s).cam = s.cam := rfl
@[simp] theorem raiseReq_preset (op : BitVec 3) (s : State) : (raiseReq op s).preset = s.preset := rfl
@[simp] theorem raiseReq_pkt (op : BitVec 3) (s : State) : (raiseReq op s).pkt = s.pkt := rfl
@[simp] theorem raiseReq_baud (op : BitVec 3) (s : State) : (raiseReq op s).baud = s.baud := rfl
@[simp] theorem raiseReq_port (op : BitVec 3) (s : State) : (raiseReq op s).port = s.port := rfl
@[simp] theorem raiseReq_dcb (op : BitVec 3) (s : State) : (raiseReq op s).dcb = s.dcb := rfl
@[simp] theorem raiseReq_bytesWritten (op : BitVec 3) (s : State) : (raiseReq op s).bytesWritten = s.bytesWritten := rfl
@[simp] theorem raiseReq_upc (op : BitVec 3) (s : State) : (raiseReq op s).upc = s.upc := rfl
@[simp] theorem raiseReq_conn (op : BitVec 3) (s : State) : (raiseReq op s).conn = s.conn := rfl
@[simp] theorem raiseReq_handle (op : BitVec 3) (s : State) : (raiseReq op s).handle = s.handle := rfl
@[simp] theorem raiseReq_pktValid (op : BitVec 3) (s : State) : (raiseReq op s).pktValid = s.pktValid := rfl
@[simp] theorem raiseReq_err (op : BitVec 3) (s : State) : (raiseReq op s).err = s.err := rfl
@[simp] theorem raiseReq_done (op : BitVec 3) (s : State) : (raiseReq op s).done = s.done := rfl
@[simp] theorem raiseReq_exit (op : BitVec 3) (s : State) : (raiseReq op s).exit = s.exit := rfl
@[simp] theorem raiseReq_inp (op : BitVec 3) (s : State) : (raiseReq op s).inp = s.inp := rfl
@[simp] theorem raiseReq_req (op : BitVec 3) (s : State) : (raiseReq op s).req = { s.req with valid := true, op := op } := rfl
@[simp] theorem raiseReq_rsp (op : BitVec 3) (s : State) : (raiseReq op s).rsp = { s.rsp with valid := false } := rfl
@[simp] theorem raiseReq_diagPort (op : BitVec 3) (s : State) : (raiseReq op s).diagPort = s.diagPort := rfl
@[simp] theorem raiseReq_ev (op : BitVec 3) (s : State) : (raiseReq op s).ev = s.ev := rfl
@[simp] theorem raiseReq_devs (op : BitVec 3) (s : State) : (raiseReq op s).devs = s.devs := rfl
@[simp] theorem raiseReq_link (op : BitVec 3) (s : State) : (raiseReq op s).link = s.link := rfl
@[simp] theorem raiseReq_answers (op : BitVec 3) (s : State) : (raiseReq op s).answers = s.answers := rfl
@[simp] theorem raiseReq_turns (op : BitVec 3) (s : State) : (raiseReq op s).turns = s.turns := rfl

/-! ### `withAnswers`: taking a choice changes the device's later choices -/

@[simp] theorem withAnswers_cam (l : List DevChoice) (s : State) : (withAnswers l s).cam = s.cam := rfl
@[simp] theorem withAnswers_preset (l : List DevChoice) (s : State) : (withAnswers l s).preset = s.preset := rfl
@[simp] theorem withAnswers_pkt (l : List DevChoice) (s : State) : (withAnswers l s).pkt = s.pkt := rfl
@[simp] theorem withAnswers_baud (l : List DevChoice) (s : State) : (withAnswers l s).baud = s.baud := rfl
@[simp] theorem withAnswers_port (l : List DevChoice) (s : State) : (withAnswers l s).port = s.port := rfl
@[simp] theorem withAnswers_dcb (l : List DevChoice) (s : State) : (withAnswers l s).dcb = s.dcb := rfl
@[simp] theorem withAnswers_bytesWritten (l : List DevChoice) (s : State) : (withAnswers l s).bytesWritten = s.bytesWritten := rfl
@[simp] theorem withAnswers_upc (l : List DevChoice) (s : State) : (withAnswers l s).upc = s.upc := rfl
@[simp] theorem withAnswers_conn (l : List DevChoice) (s : State) : (withAnswers l s).conn = s.conn := rfl
@[simp] theorem withAnswers_handle (l : List DevChoice) (s : State) : (withAnswers l s).handle = s.handle := rfl
@[simp] theorem withAnswers_pktValid (l : List DevChoice) (s : State) : (withAnswers l s).pktValid = s.pktValid := rfl
@[simp] theorem withAnswers_err (l : List DevChoice) (s : State) : (withAnswers l s).err = s.err := rfl
@[simp] theorem withAnswers_done (l : List DevChoice) (s : State) : (withAnswers l s).done = s.done := rfl
@[simp] theorem withAnswers_exit (l : List DevChoice) (s : State) : (withAnswers l s).exit = s.exit := rfl
@[simp] theorem withAnswers_inp (l : List DevChoice) (s : State) : (withAnswers l s).inp = s.inp := rfl
@[simp] theorem withAnswers_req (l : List DevChoice) (s : State) : (withAnswers l s).req = s.req := rfl
@[simp] theorem withAnswers_rsp (l : List DevChoice) (s : State) : (withAnswers l s).rsp = s.rsp := rfl
@[simp] theorem withAnswers_diagPort (l : List DevChoice) (s : State) : (withAnswers l s).diagPort = s.diagPort := rfl
@[simp] theorem withAnswers_ev (l : List DevChoice) (s : State) : (withAnswers l s).ev = s.ev := rfl
@[simp] theorem withAnswers_devs (l : List DevChoice) (s : State) : (withAnswers l s).devs = s.devs := rfl
@[simp] theorem withAnswers_link (l : List DevChoice) (s : State) : (withAnswers l s).link = s.link := rfl
@[simp] theorem withAnswers_answers (l : List DevChoice) (s : State) : (withAnswers l s).answers = l := rfl
@[simp] theorem withAnswers_turns (l : List DevChoice) (s : State) : (withAnswers l s).turns = s.turns := rfl

/-! ### `settle`: settling lowers the two valid wires -/

@[simp] theorem settle_cam (s : State) : (settle s).cam = s.cam := rfl
@[simp] theorem settle_preset (s : State) : (settle s).preset = s.preset := rfl
@[simp] theorem settle_pkt (s : State) : (settle s).pkt = s.pkt := rfl
@[simp] theorem settle_baud (s : State) : (settle s).baud = s.baud := rfl
@[simp] theorem settle_port (s : State) : (settle s).port = s.port := rfl
@[simp] theorem settle_dcb (s : State) : (settle s).dcb = s.dcb := rfl
@[simp] theorem settle_bytesWritten (s : State) : (settle s).bytesWritten = s.bytesWritten := rfl
@[simp] theorem settle_upc (s : State) : (settle s).upc = s.upc := rfl
@[simp] theorem settle_conn (s : State) : (settle s).conn = s.conn := rfl
@[simp] theorem settle_handle (s : State) : (settle s).handle = s.handle := rfl
@[simp] theorem settle_pktValid (s : State) : (settle s).pktValid = s.pktValid := rfl
@[simp] theorem settle_err (s : State) : (settle s).err = s.err := rfl
@[simp] theorem settle_done (s : State) : (settle s).done = s.done := rfl
@[simp] theorem settle_exit (s : State) : (settle s).exit = s.exit := rfl
@[simp] theorem settle_inp (s : State) : (settle s).inp = s.inp := rfl
@[simp] theorem settle_req (s : State) : (settle s).req = { s.req with valid := false } := rfl
@[simp] theorem settle_rsp (s : State) : (settle s).rsp = { s.rsp with valid := false } := rfl
@[simp] theorem settle_diagPort (s : State) : (settle s).diagPort = s.diagPort := rfl
@[simp] theorem settle_ev (s : State) : (settle s).ev = s.ev := rfl
@[simp] theorem settle_devs (s : State) : (settle s).devs = s.devs := rfl
@[simp] theorem settle_link (s : State) : (settle s).link = s.link := rfl
@[simp] theorem settle_answers (s : State) : (settle s).answers = s.answers := rfl
@[simp] theorem settle_turns (s : State) : (settle s).turns = s.turns := rfl

/-! ### `answerOk`: an answer without payload changes the answer wires -/

@[simp] theorem answerOk_cam (b : Bool) (s : State) : (answerOk b s).cam = s.cam := rfl
@[simp] theorem answerOk_preset (b : Bool) (s : State) : (answerOk b s).preset = s.preset := rfl
@[simp] theorem answerOk_pkt (b : Bool) (s : State) : (answerOk b s).pkt = s.pkt := rfl
@[simp] theorem answerOk_baud (b : Bool) (s : State) : (answerOk b s).baud = s.baud := rfl
@[simp] theorem answerOk_port (b : Bool) (s : State) : (answerOk b s).port = s.port := rfl
@[simp] theorem answerOk_dcb (b : Bool) (s : State) : (answerOk b s).dcb = s.dcb := rfl
@[simp] theorem answerOk_bytesWritten (b : Bool) (s : State) : (answerOk b s).bytesWritten = s.bytesWritten := rfl
@[simp] theorem answerOk_upc (b : Bool) (s : State) : (answerOk b s).upc = s.upc := rfl
@[simp] theorem answerOk_conn (b : Bool) (s : State) : (answerOk b s).conn = s.conn := rfl
@[simp] theorem answerOk_handle (b : Bool) (s : State) : (answerOk b s).handle = s.handle := rfl
@[simp] theorem answerOk_pktValid (b : Bool) (s : State) : (answerOk b s).pktValid = s.pktValid := rfl
@[simp] theorem answerOk_err (b : Bool) (s : State) : (answerOk b s).err = s.err := rfl
@[simp] theorem answerOk_done (b : Bool) (s : State) : (answerOk b s).done = s.done := rfl
@[simp] theorem answerOk_exit (b : Bool) (s : State) : (answerOk b s).exit = s.exit := rfl
@[simp] theorem answerOk_inp (b : Bool) (s : State) : (answerOk b s).inp = s.inp := rfl
@[simp] theorem answerOk_req (b : Bool) (s : State) : (answerOk b s).req = s.req := rfl
@[simp] theorem answerOk_rsp (b : Bool) (s : State) : (answerOk b s).rsp = { s.rsp with valid := true, ok := b } := rfl
@[simp] theorem answerOk_diagPort (b : Bool) (s : State) : (answerOk b s).diagPort = s.diagPort := rfl
@[simp] theorem answerOk_ev (b : Bool) (s : State) : (answerOk b s).ev = s.ev := rfl
@[simp] theorem answerOk_devs (b : Bool) (s : State) : (answerOk b s).devs = s.devs := rfl
@[simp] theorem answerOk_link (b : Bool) (s : State) : (answerOk b s).link = s.link := rfl
@[simp] theorem answerOk_answers (b : Bool) (s : State) : (answerOk b s).answers = s.answers := rfl
@[simp] theorem answerOk_turns (b : Bool) (s : State) : (answerOk b s).turns = s.turns := rfl

/-! ### `record`: recording changes EV -/

@[simp] theorem record_cam (e : Event) (s : State) : (record e s).cam = s.cam := rfl
@[simp] theorem record_preset (e : Event) (s : State) : (record e s).preset = s.preset := rfl
@[simp] theorem record_pkt (e : Event) (s : State) : (record e s).pkt = s.pkt := rfl
@[simp] theorem record_baud (e : Event) (s : State) : (record e s).baud = s.baud := rfl
@[simp] theorem record_port (e : Event) (s : State) : (record e s).port = s.port := rfl
@[simp] theorem record_dcb (e : Event) (s : State) : (record e s).dcb = s.dcb := rfl
@[simp] theorem record_bytesWritten (e : Event) (s : State) : (record e s).bytesWritten = s.bytesWritten := rfl
@[simp] theorem record_upc (e : Event) (s : State) : (record e s).upc = s.upc := rfl
@[simp] theorem record_conn (e : Event) (s : State) : (record e s).conn = s.conn := rfl
@[simp] theorem record_handle (e : Event) (s : State) : (record e s).handle = s.handle := rfl
@[simp] theorem record_pktValid (e : Event) (s : State) : (record e s).pktValid = s.pktValid := rfl
@[simp] theorem record_err (e : Event) (s : State) : (record e s).err = s.err := rfl
@[simp] theorem record_done (e : Event) (s : State) : (record e s).done = s.done := rfl
@[simp] theorem record_exit (e : Event) (s : State) : (record e s).exit = s.exit := rfl
@[simp] theorem record_inp (e : Event) (s : State) : (record e s).inp = s.inp := rfl
@[simp] theorem record_req (e : Event) (s : State) : (record e s).req = s.req := rfl
@[simp] theorem record_rsp (e : Event) (s : State) : (record e s).rsp = s.rsp := rfl
@[simp] theorem record_diagPort (e : Event) (s : State) : (record e s).diagPort = s.diagPort := rfl
@[simp] theorem record_ev (e : Event) (s : State) : (record e s).ev = s.ev ++ [e] := rfl
@[simp] theorem record_devs (e : Event) (s : State) : (record e s).devs = s.devs := rfl
@[simp] theorem record_link (e : Event) (s : State) : (record e s).link = s.link := rfl
@[simp] theorem record_answers (e : Event) (s : State) : (record e s).answers = s.answers := rfl
@[simp] theorem record_turns (e : Event) (s : State) : (record e s).turns = s.turns := rfl

/-! ### `putByte`: a lane write changes the packet buffer -/

@[simp] theorem putByte_cam (i : Fin 7) (v : Byte) (s : State) : (putByte i v s).cam = s.cam := rfl
@[simp] theorem putByte_preset (i : Fin 7) (v : Byte) (s : State) : (putByte i v s).preset = s.preset := rfl
@[simp] theorem putByte_pkt (i : Fin 7) (v : Byte) (s : State) : (putByte i v s).pkt = pktSet s.pkt i v := rfl
@[simp] theorem putByte_baud (i : Fin 7) (v : Byte) (s : State) : (putByte i v s).baud = s.baud := rfl
@[simp] theorem putByte_port (i : Fin 7) (v : Byte) (s : State) : (putByte i v s).port = s.port := rfl
@[simp] theorem putByte_dcb (i : Fin 7) (v : Byte) (s : State) : (putByte i v s).dcb = s.dcb := rfl
@[simp] theorem putByte_bytesWritten (i : Fin 7) (v : Byte) (s : State) : (putByte i v s).bytesWritten = s.bytesWritten := rfl
@[simp] theorem putByte_upc (i : Fin 7) (v : Byte) (s : State) : (putByte i v s).upc = s.upc := rfl
@[simp] theorem putByte_conn (i : Fin 7) (v : Byte) (s : State) : (putByte i v s).conn = s.conn := rfl
@[simp] theorem putByte_handle (i : Fin 7) (v : Byte) (s : State) : (putByte i v s).handle = s.handle := rfl
@[simp] theorem putByte_pktValid (i : Fin 7) (v : Byte) (s : State) : (putByte i v s).pktValid = s.pktValid := rfl
@[simp] theorem putByte_err (i : Fin 7) (v : Byte) (s : State) : (putByte i v s).err = s.err := rfl
@[simp] theorem putByte_done (i : Fin 7) (v : Byte) (s : State) : (putByte i v s).done = s.done := rfl
@[simp] theorem putByte_exit (i : Fin 7) (v : Byte) (s : State) : (putByte i v s).exit = s.exit := rfl
@[simp] theorem putByte_inp (i : Fin 7) (v : Byte) (s : State) : (putByte i v s).inp = s.inp := rfl
@[simp] theorem putByte_req (i : Fin 7) (v : Byte) (s : State) : (putByte i v s).req = s.req := rfl
@[simp] theorem putByte_rsp (i : Fin 7) (v : Byte) (s : State) : (putByte i v s).rsp = s.rsp := rfl
@[simp] theorem putByte_diagPort (i : Fin 7) (v : Byte) (s : State) : (putByte i v s).diagPort = s.diagPort := rfl
@[simp] theorem putByte_ev (i : Fin 7) (v : Byte) (s : State) : (putByte i v s).ev = s.ev := rfl
@[simp] theorem putByte_devs (i : Fin 7) (v : Byte) (s : State) : (putByte i v s).devs = s.devs := rfl
@[simp] theorem putByte_link (i : Fin 7) (v : Byte) (s : State) : (putByte i v s).link = s.link := rfl
@[simp] theorem putByte_answers (i : Fin 7) (v : Byte) (s : State) : (putByte i v s).answers = s.answers := rfl
@[simp] theorem putByte_turns (i : Fin 7) (v : Byte) (s : State) : (putByte i v s).turns = s.turns := rfl

/-! ### `putPort`: a port number goes on dev_req_port -/

@[simp] theorem putPort_cam (p : HostInt) (s : State) : (putPort p s).cam = s.cam := rfl
@[simp] theorem putPort_preset (p : HostInt) (s : State) : (putPort p s).preset = s.preset := rfl
@[simp] theorem putPort_pkt (p : HostInt) (s : State) : (putPort p s).pkt = s.pkt := rfl
@[simp] theorem putPort_baud (p : HostInt) (s : State) : (putPort p s).baud = s.baud := rfl
@[simp] theorem putPort_port (p : HostInt) (s : State) : (putPort p s).port = s.port := rfl
@[simp] theorem putPort_dcb (p : HostInt) (s : State) : (putPort p s).dcb = s.dcb := rfl
@[simp] theorem putPort_bytesWritten (p : HostInt) (s : State) : (putPort p s).bytesWritten = s.bytesWritten := rfl
@[simp] theorem putPort_upc (p : HostInt) (s : State) : (putPort p s).upc = s.upc := rfl
@[simp] theorem putPort_conn (p : HostInt) (s : State) : (putPort p s).conn = s.conn := rfl
@[simp] theorem putPort_handle (p : HostInt) (s : State) : (putPort p s).handle = s.handle := rfl
@[simp] theorem putPort_pktValid (p : HostInt) (s : State) : (putPort p s).pktValid = s.pktValid := rfl
@[simp] theorem putPort_err (p : HostInt) (s : State) : (putPort p s).err = s.err := rfl
@[simp] theorem putPort_done (p : HostInt) (s : State) : (putPort p s).done = s.done := rfl
@[simp] theorem putPort_exit (p : HostInt) (s : State) : (putPort p s).exit = s.exit := rfl
@[simp] theorem putPort_inp (p : HostInt) (s : State) : (putPort p s).inp = s.inp := rfl
@[simp] theorem putPort_req (p : HostInt) (s : State) : (putPort p s).req = { s.req with port := p } := rfl
@[simp] theorem putPort_rsp (p : HostInt) (s : State) : (putPort p s).rsp = s.rsp := rfl
@[simp] theorem putPort_diagPort (p : HostInt) (s : State) : (putPort p s).diagPort = s.diagPort := rfl
@[simp] theorem putPort_ev (p : HostInt) (s : State) : (putPort p s).ev = s.ev := rfl
@[simp] theorem putPort_devs (p : HostInt) (s : State) : (putPort p s).devs = s.devs := rfl
@[simp] theorem putPort_link (p : HostInt) (s : State) : (putPort p s).link = s.link := rfl
@[simp] theorem putPort_answers (p : HostInt) (s : State) : (putPort p s).answers = s.answers := rfl
@[simp] theorem putPort_turns (p : HostInt) (s : State) : (putPort p s).turns = s.turns := rfl

/-! ### `putDcb`: a control block goes on dev_req_dcb -/

@[simp] theorem putDcb_cam (d : Dcb) (s : State) : (putDcb d s).cam = s.cam := rfl
@[simp] theorem putDcb_preset (d : Dcb) (s : State) : (putDcb d s).preset = s.preset := rfl
@[simp] theorem putDcb_pkt (d : Dcb) (s : State) : (putDcb d s).pkt = s.pkt := rfl
@[simp] theorem putDcb_baud (d : Dcb) (s : State) : (putDcb d s).baud = s.baud := rfl
@[simp] theorem putDcb_port (d : Dcb) (s : State) : (putDcb d s).port = s.port := rfl
@[simp] theorem putDcb_dcb (d : Dcb) (s : State) : (putDcb d s).dcb = s.dcb := rfl
@[simp] theorem putDcb_bytesWritten (d : Dcb) (s : State) : (putDcb d s).bytesWritten = s.bytesWritten := rfl
@[simp] theorem putDcb_upc (d : Dcb) (s : State) : (putDcb d s).upc = s.upc := rfl
@[simp] theorem putDcb_conn (d : Dcb) (s : State) : (putDcb d s).conn = s.conn := rfl
@[simp] theorem putDcb_handle (d : Dcb) (s : State) : (putDcb d s).handle = s.handle := rfl
@[simp] theorem putDcb_pktValid (d : Dcb) (s : State) : (putDcb d s).pktValid = s.pktValid := rfl
@[simp] theorem putDcb_err (d : Dcb) (s : State) : (putDcb d s).err = s.err := rfl
@[simp] theorem putDcb_done (d : Dcb) (s : State) : (putDcb d s).done = s.done := rfl
@[simp] theorem putDcb_exit (d : Dcb) (s : State) : (putDcb d s).exit = s.exit := rfl
@[simp] theorem putDcb_inp (d : Dcb) (s : State) : (putDcb d s).inp = s.inp := rfl
@[simp] theorem putDcb_req (d : Dcb) (s : State) : (putDcb d s).req = { s.req with dcb := d } := rfl
@[simp] theorem putDcb_rsp (d : Dcb) (s : State) : (putDcb d s).rsp = s.rsp := rfl
@[simp] theorem putDcb_diagPort (d : Dcb) (s : State) : (putDcb d s).diagPort = s.diagPort := rfl
@[simp] theorem putDcb_ev (d : Dcb) (s : State) : (putDcb d s).ev = s.ev := rfl
@[simp] theorem putDcb_devs (d : Dcb) (s : State) : (putDcb d s).devs = s.devs := rfl
@[simp] theorem putDcb_link (d : Dcb) (s : State) : (putDcb d s).link = s.link := rfl
@[simp] theorem putDcb_answers (d : Dcb) (s : State) : (putDcb d s).answers = s.answers := rfl
@[simp] theorem putDcb_turns (d : Dcb) (s : State) : (putDcb d s).turns = s.turns := rfl

/-! ### `putTmo`: a timeout record goes on dev_req_tmo -/

@[simp] theorem putTmo_cam (t : Tmo) (s : State) : (putTmo t s).cam = s.cam := rfl
@[simp] theorem putTmo_preset (t : Tmo) (s : State) : (putTmo t s).preset = s.preset := rfl
@[simp] theorem putTmo_pkt (t : Tmo) (s : State) : (putTmo t s).pkt = s.pkt := rfl
@[simp] theorem putTmo_baud (t : Tmo) (s : State) : (putTmo t s).baud = s.baud := rfl
@[simp] theorem putTmo_port (t : Tmo) (s : State) : (putTmo t s).port = s.port := rfl
@[simp] theorem putTmo_dcb (t : Tmo) (s : State) : (putTmo t s).dcb = s.dcb := rfl
@[simp] theorem putTmo_bytesWritten (t : Tmo) (s : State) : (putTmo t s).bytesWritten = s.bytesWritten := rfl
@[simp] theorem putTmo_upc (t : Tmo) (s : State) : (putTmo t s).upc = s.upc := rfl
@[simp] theorem putTmo_conn (t : Tmo) (s : State) : (putTmo t s).conn = s.conn := rfl
@[simp] theorem putTmo_handle (t : Tmo) (s : State) : (putTmo t s).handle = s.handle := rfl
@[simp] theorem putTmo_pktValid (t : Tmo) (s : State) : (putTmo t s).pktValid = s.pktValid := rfl
@[simp] theorem putTmo_err (t : Tmo) (s : State) : (putTmo t s).err = s.err := rfl
@[simp] theorem putTmo_done (t : Tmo) (s : State) : (putTmo t s).done = s.done := rfl
@[simp] theorem putTmo_exit (t : Tmo) (s : State) : (putTmo t s).exit = s.exit := rfl
@[simp] theorem putTmo_inp (t : Tmo) (s : State) : (putTmo t s).inp = s.inp := rfl
@[simp] theorem putTmo_req (t : Tmo) (s : State) : (putTmo t s).req = { s.req with tmo := t } := rfl
@[simp] theorem putTmo_rsp (t : Tmo) (s : State) : (putTmo t s).rsp = s.rsp := rfl
@[simp] theorem putTmo_diagPort (t : Tmo) (s : State) : (putTmo t s).diagPort = s.diagPort := rfl
@[simp] theorem putTmo_ev (t : Tmo) (s : State) : (putTmo t s).ev = s.ev := rfl
@[simp] theorem putTmo_devs (t : Tmo) (s : State) : (putTmo t s).devs = s.devs := rfl
@[simp] theorem putTmo_link (t : Tmo) (s : State) : (putTmo t s).link = s.link := rfl
@[simp] theorem putTmo_answers (t : Tmo) (s : State) : (putTmo t s).answers = s.answers := rfl
@[simp] theorem putTmo_turns (t : Tmo) (s : State) : (putTmo t s).turns = s.turns := rfl

/-! ### `putData`: a packet goes on dev_req_data -/

@[simp] theorem putData_cam (k : Packet) (s : State) : (putData k s).cam = s.cam := rfl
@[simp] theorem putData_preset (k : Packet) (s : State) : (putData k s).preset = s.preset := rfl
@[simp] theorem putData_pkt (k : Packet) (s : State) : (putData k s).pkt = s.pkt := rfl
@[simp] theorem putData_baud (k : Packet) (s : State) : (putData k s).baud = s.baud := rfl
@[simp] theorem putData_port (k : Packet) (s : State) : (putData k s).port = s.port := rfl
@[simp] theorem putData_dcb (k : Packet) (s : State) : (putData k s).dcb = s.dcb := rfl
@[simp] theorem putData_bytesWritten (k : Packet) (s : State) : (putData k s).bytesWritten = s.bytesWritten := rfl
@[simp] theorem putData_upc (k : Packet) (s : State) : (putData k s).upc = s.upc := rfl
@[simp] theorem putData_conn (k : Packet) (s : State) : (putData k s).conn = s.conn := rfl
@[simp] theorem putData_handle (k : Packet) (s : State) : (putData k s).handle = s.handle := rfl
@[simp] theorem putData_pktValid (k : Packet) (s : State) : (putData k s).pktValid = s.pktValid := rfl
@[simp] theorem putData_err (k : Packet) (s : State) : (putData k s).err = s.err := rfl
@[simp] theorem putData_done (k : Packet) (s : State) : (putData k s).done = s.done := rfl
@[simp] theorem putData_exit (k : Packet) (s : State) : (putData k s).exit = s.exit := rfl
@[simp] theorem putData_inp (k : Packet) (s : State) : (putData k s).inp = s.inp := rfl
@[simp] theorem putData_req (k : Packet) (s : State) : (putData k s).req = { s.req with data := packetWord k } := rfl
@[simp] theorem putData_rsp (k : Packet) (s : State) : (putData k s).rsp = s.rsp := rfl
@[simp] theorem putData_diagPort (k : Packet) (s : State) : (putData k s).diagPort = s.diagPort := rfl
@[simp] theorem putData_ev (k : Packet) (s : State) : (putData k s).ev = s.ev := rfl
@[simp] theorem putData_devs (k : Packet) (s : State) : (putData k s).devs = s.devs := rfl
@[simp] theorem putData_link (k : Packet) (s : State) : (putData k s).link = s.link := rfl
@[simp] theorem putData_answers (k : Packet) (s : State) : (putData k s).answers = s.answers := rfl
@[simp] theorem putData_turns (k : Packet) (s : State) : (putData k s).turns = s.turns := rfl

/-! ### `modifyAt`: changing a device changes the table of devices -/

@[simp] theorem modifyAt_cam (p : HostInt) (f : Device → Device) (s : State) : (modifyAt p f s).cam = s.cam := rfl
@[simp] theorem modifyAt_preset (p : HostInt) (f : Device → Device) (s : State) : (modifyAt p f s).preset = s.preset := rfl
@[simp] theorem modifyAt_pkt (p : HostInt) (f : Device → Device) (s : State) : (modifyAt p f s).pkt = s.pkt := rfl
@[simp] theorem modifyAt_baud (p : HostInt) (f : Device → Device) (s : State) : (modifyAt p f s).baud = s.baud := rfl
@[simp] theorem modifyAt_port (p : HostInt) (f : Device → Device) (s : State) : (modifyAt p f s).port = s.port := rfl
@[simp] theorem modifyAt_dcb (p : HostInt) (f : Device → Device) (s : State) : (modifyAt p f s).dcb = s.dcb := rfl
@[simp] theorem modifyAt_bytesWritten (p : HostInt) (f : Device → Device) (s : State) : (modifyAt p f s).bytesWritten = s.bytesWritten := rfl
@[simp] theorem modifyAt_upc (p : HostInt) (f : Device → Device) (s : State) : (modifyAt p f s).upc = s.upc := rfl
@[simp] theorem modifyAt_conn (p : HostInt) (f : Device → Device) (s : State) : (modifyAt p f s).conn = s.conn := rfl
@[simp] theorem modifyAt_handle (p : HostInt) (f : Device → Device) (s : State) : (modifyAt p f s).handle = s.handle := rfl
@[simp] theorem modifyAt_pktValid (p : HostInt) (f : Device → Device) (s : State) : (modifyAt p f s).pktValid = s.pktValid := rfl
@[simp] theorem modifyAt_err (p : HostInt) (f : Device → Device) (s : State) : (modifyAt p f s).err = s.err := rfl
@[simp] theorem modifyAt_done (p : HostInt) (f : Device → Device) (s : State) : (modifyAt p f s).done = s.done := rfl
@[simp] theorem modifyAt_exit (p : HostInt) (f : Device → Device) (s : State) : (modifyAt p f s).exit = s.exit := rfl
@[simp] theorem modifyAt_inp (p : HostInt) (f : Device → Device) (s : State) : (modifyAt p f s).inp = s.inp := rfl
@[simp] theorem modifyAt_req (p : HostInt) (f : Device → Device) (s : State) : (modifyAt p f s).req = s.req := rfl
@[simp] theorem modifyAt_rsp (p : HostInt) (f : Device → Device) (s : State) : (modifyAt p f s).rsp = s.rsp := rfl
@[simp] theorem modifyAt_diagPort (p : HostInt) (f : Device → Device) (s : State) : (modifyAt p f s).diagPort = s.diagPort := rfl
@[simp] theorem modifyAt_ev (p : HostInt) (f : Device → Device) (s : State) : (modifyAt p f s).ev = s.ev := rfl
@[simp] theorem modifyAt_devs (p : HostInt) (f : Device → Device) (s : State) : (modifyAt p f s).devs = devModify p.toNat f s.devs := rfl
@[simp] theorem modifyAt_link (p : HostInt) (f : Device → Device) (s : State) : (modifyAt p f s).link = s.link := rfl
@[simp] theorem modifyAt_answers (p : HostInt) (f : Device → Device) (s : State) : (modifyAt p f s).answers = s.answers := rfl
@[simp] theorem modifyAt_turns (p : HostInt) (f : Device → Device) (s : State) : (modifyAt p f s).turns = s.turns := rfl

/-! ### `modifyLinked`: changing the linked device changes the table of devices only -/

@[simp] theorem modifyLinked_cam (f : Device → Device) (s : State) : (modifyLinked f s).cam = s.cam := by unfold modifyLinked; split <;> rfl
@[simp] theorem modifyLinked_preset (f : Device → Device) (s : State) : (modifyLinked f s).preset = s.preset := by unfold modifyLinked; split <;> rfl
@[simp] theorem modifyLinked_pkt (f : Device → Device) (s : State) : (modifyLinked f s).pkt = s.pkt := by unfold modifyLinked; split <;> rfl
@[simp] theorem modifyLinked_baud (f : Device → Device) (s : State) : (modifyLinked f s).baud = s.baud := by unfold modifyLinked; split <;> rfl
@[simp] theorem modifyLinked_port (f : Device → Device) (s : State) : (modifyLinked f s).port = s.port := by unfold modifyLinked; split <;> rfl
@[simp] theorem modifyLinked_dcb (f : Device → Device) (s : State) : (modifyLinked f s).dcb = s.dcb := by unfold modifyLinked; split <;> rfl
@[simp] theorem modifyLinked_bytesWritten (f : Device → Device) (s : State) : (modifyLinked f s).bytesWritten = s.bytesWritten := by unfold modifyLinked; split <;> rfl
@[simp] theorem modifyLinked_upc (f : Device → Device) (s : State) : (modifyLinked f s).upc = s.upc := by unfold modifyLinked; split <;> rfl
@[simp] theorem modifyLinked_conn (f : Device → Device) (s : State) : (modifyLinked f s).conn = s.conn := by unfold modifyLinked; split <;> rfl
@[simp] theorem modifyLinked_handle (f : Device → Device) (s : State) : (modifyLinked f s).handle = s.handle := by unfold modifyLinked; split <;> rfl
@[simp] theorem modifyLinked_pktValid (f : Device → Device) (s : State) : (modifyLinked f s).pktValid = s.pktValid := by unfold modifyLinked; split <;> rfl
@[simp] theorem modifyLinked_err (f : Device → Device) (s : State) : (modifyLinked f s).err = s.err := by unfold modifyLinked; split <;> rfl
@[simp] theorem modifyLinked_done (f : Device → Device) (s : State) : (modifyLinked f s).done = s.done := by unfold modifyLinked; split <;> rfl
@[simp] theorem modifyLinked_exit (f : Device → Device) (s : State) : (modifyLinked f s).exit = s.exit := by unfold modifyLinked; split <;> rfl
@[simp] theorem modifyLinked_inp (f : Device → Device) (s : State) : (modifyLinked f s).inp = s.inp := by unfold modifyLinked; split <;> rfl
@[simp] theorem modifyLinked_req (f : Device → Device) (s : State) : (modifyLinked f s).req = s.req := by unfold modifyLinked; split <;> rfl
@[simp] theorem modifyLinked_rsp (f : Device → Device) (s : State) : (modifyLinked f s).rsp = s.rsp := by unfold modifyLinked; split <;> rfl
@[simp] theorem modifyLinked_diagPort (f : Device → Device) (s : State) : (modifyLinked f s).diagPort = s.diagPort := by unfold modifyLinked; split <;> rfl
@[simp] theorem modifyLinked_ev (f : Device → Device) (s : State) : (modifyLinked f s).ev = s.ev := by unfold modifyLinked; split <;> rfl
@[simp] theorem modifyLinked_link (f : Device → Device) (s : State) : (modifyLinked f s).link = s.link := by unfold modifyLinked; split <;> rfl
@[simp] theorem modifyLinked_answers (f : Device → Device) (s : State) : (modifyLinked f s).answers = s.answers := by unfold modifyLinked; split <;> rfl
@[simp] theorem modifyLinked_turns (f : Device → Device) (s : State) : (modifyLinked f s).turns = s.turns := by unfold modifyLinked; split <;> rfl

/-! ### `haltWith`: the direct halt -/

@[simp] theorem haltWith_cam (e : Err) (s : State) : (haltWith e s).cam = s.cam := rfl
@[simp] theorem haltWith_preset (e : Err) (s : State) : (haltWith e s).preset = s.preset := rfl
@[simp] theorem haltWith_pkt (e : Err) (s : State) : (haltWith e s).pkt = s.pkt := rfl
@[simp] theorem haltWith_baud (e : Err) (s : State) : (haltWith e s).baud = s.baud := rfl
@[simp] theorem haltWith_port (e : Err) (s : State) : (haltWith e s).port = s.port := rfl
@[simp] theorem haltWith_dcb (e : Err) (s : State) : (haltWith e s).dcb = s.dcb := rfl
@[simp] theorem haltWith_bytesWritten (e : Err) (s : State) : (haltWith e s).bytesWritten = s.bytesWritten := rfl
@[simp] theorem haltWith_upc (e : Err) (s : State) : (haltWith e s).upc = upcHalt := rfl
@[simp] theorem haltWith_conn (e : Err) (s : State) : (haltWith e s).conn = .closed := rfl
@[simp] theorem haltWith_handle (e : Err) (s : State) : (haltWith e s).handle = s.handle := rfl
@[simp] theorem haltWith_pktValid (e : Err) (s : State) : (haltWith e s).pktValid = s.pktValid := rfl
@[simp] theorem haltWith_err (e : Err) (s : State) : (haltWith e s).err = e := rfl
@[simp] theorem haltWith_done (e : Err) (s : State) : (haltWith e s).done = true := rfl
@[simp] theorem haltWith_exit (e : Err) (s : State) : (haltWith e s).exit = some (exitOf e) := rfl
@[simp] theorem haltWith_inp (e : Err) (s : State) : (haltWith e s).inp = s.inp := rfl
@[simp] theorem haltWith_req (e : Err) (s : State) : (haltWith e s).req = s.req := rfl
@[simp] theorem haltWith_rsp (e : Err) (s : State) : (haltWith e s).rsp = s.rsp := rfl
@[simp] theorem haltWith_diagPort (e : Err) (s : State) : (haltWith e s).diagPort = some (.error e) := rfl
@[simp] theorem haltWith_ev (e : Err) (s : State) : (haltWith e s).ev = s.ev ++ [.diag (.error e)] := rfl
@[simp] theorem haltWith_devs (e : Err) (s : State) : (haltWith e s).devs = s.devs := rfl
@[simp] theorem haltWith_link (e : Err) (s : State) : (haltWith e s).link = s.link := rfl
@[simp] theorem haltWith_answers (e : Err) (s : State) : (haltWith e s).answers = s.answers := rfl
@[simp] theorem haltWith_turns (e : Err) (s : State) : (haltWith e s).turns = s.turns := rfl

end Sys2Proof.Machine
end

