-- ==== Sys2Proof/Laws/Ops.lean ====
section
/-!
SUPPORT. Laws/Ops.lean: one lemma for each shared operation that says once what it can do: register reads, the wait for an
answer, the abort, the table of devices (read after write, canonical form), widths and truncation.
-/

namespace Sys2Proof.Machine

/-! ### Widths and truncation -/

theorem nine_le_inW : 9 ≤ Config.inW := by unfold Config.inW; omega

theorem three_le_cntW : 3 ≤ Config.cntW := by unfold Config.cntW; omega

theorem small_lt_cntW {n : Nat} (h : n < 8) : n < 2 ^ Config.cntW :=
  lt_of_lt_of_le h (le_trans (by decide : 8 ≤ 2 ^ 3) (Nat.pow_le_pow_right (by decide) three_le_cntW))

/-- A count below 8 is its own number, whatever CNT_W is. -/
theorem count_toNat {n : Nat} (h : n < 8) : (BitVec.ofNat Config.cntW n).toNat = n := by
  rw [BitVec.toNat_ofNat, Nat.mod_eq_of_lt (small_lt_cntW h)]

theorem dvd_pow_inW : (256 : Int) ∣ ((2 ^ Config.inW : Nat) : Int) := by
  have h : (2 ^ 8 : Nat) ∣ 2 ^ Config.inW := Nat.pow_dvd_pow 2 (le_trans (by decide) nine_le_inW)
  exact_mod_cast h

/-- Truncation keeps the low 8 bits of the two's complement, whatever IN_W is (rule R73). -/
theorem trunc8_ofInt (n : Int) : trunc8 (BitVec.ofInt Config.inW n) = BitVec.ofInt 8 n := by
  apply BitVec.eq_of_toInt_eq
  unfold trunc8
  rw [← BitVec.ofInt_natCast, BitVec.toInt_ofInt, BitVec.toInt_ofInt, BitVec.toNat_ofInt]
  rw [Int.toNat_of_nonneg (Int.emod_nonneg _ (by positivity))]
  rw [← Int.emod_bmod, show ((2 ^ 8 : Nat) : Int) = 256 from rfl, Int.emod_emod_of_dvd n dvd_pow_inW]
  exact Int.emod_bmod n 256

/-! ### Reading registers and waiting -/

@[simp] theorem need_some {α : Type} (v : α) (n : RegName) (k : α → Result) : need (some v) n k = k v := rfl

@[simp] theorem need_none {α : Type} (n : RegName) (k : α → Result) : need none n k = .fault (.unwritten n) := rfl

/-- A register known to hold a value is read without touching the rest of the goal. -/
theorem need_of_some {α : Type} {r : Option α} {v : α} (h : r = some v) (n : RegName) (k : α → Result) :
    need r n k = k v := by
  subst h; rfl

/-- A register known to hold ⊥ faults. -/
theorem need_of_none {α : Type} {r : Option α} (h : r = none) (n : RegName) (k : α → Result) :
    need r n k = .fault (.unwritten n) := by
  subst h; rfl

/-- A register read that goes on had a value to go on with. -/
theorem need_next {α : Type} {r : Option α} {n : RegName} {k : α → Result} {t : State} (h : need r n k = .next t) :
    ∃ v, r = some v ∧ k v = .next t := by
  cases r with
  | none => cases h
  | some v => exact ⟨v, rfl, h⟩

@[simp] theorem needPacket_full (k : Packet) (f : Packet → Result) : needPacket (pktFull k) f = f k := rfl

/-- A buffer known to hold a packet is read as that packet. -/
theorem needPacket_of_full {b : PktBuf} {k : Packet} (h : b = pktFull k) (f : Packet → Result) : needPacket b f = f k := by
  subst h; rfl

/-- Reading the packet goes on only with all seven bytes written. -/
theorem needPacket_next {b : PktBuf} {f : Packet → Result} {t : State} (h : needPacket b f = .next t) :
    ∃ k, b = pktFull k ∧ f k = .next t := by
  obtain ⟨b0, h0, h⟩ := need_next h
  obtain ⟨b1, h1, h⟩ := need_next h
  obtain ⟨b2, h2, h⟩ := need_next h
  obtain ⟨b3, h3, h⟩ := need_next h
  obtain ⟨b4, h4, h⟩ := need_next h
  obtain ⟨b5, h5, h⟩ := need_next h
  obtain ⟨b6, h6, h⟩ := need_next h
  refine ⟨⟨b0, b1, b2, b3, b4, b5, b6⟩, ?_, h⟩
  cases b
  simp_all [pktFull]

/-- With no answer at hand a request stays raised. -/
theorem serve_nil {op : BitVec 3} {f : DevChoice → State → State} {s : State} (h : s.answers = []) :
    serve op f s = raiseReq op s := by
  unfold serve; rw [h]

/-- With an answer at hand the device answers with it. -/
theorem serve_cons {op : BitVec 3} {f : DevChoice → State → State} {s : State} {c : DevChoice} {rest : List DevChoice}
    (h : s.answers = c :: rest) : serve op f s = f c (withAnswers rest (raiseReq op s)) := by
  unfold serve; rw [h]

theorem await_answered {s : State} {k : State → Result} (h : s.rsp.valid = true) : await s k = k (settle s) := by
  unfold await; rw [if_pos h]

theorem await_waits {s : State} {k : State → Result} (h : s.rsp.valid = false) : await s k = .next s := by
  unfold await; simp [h]

/-- The abort with the connection held (rule R176). -/
theorem raiseError_held {e : Err} {s : State} (h : s.handle = true) :
    raiseError e s = { emit (.error e) s with err := e, upc := upcClose } := by
  unfold raiseError; rw [if_pos h]

/-- The abort without a connection is the direct halt (rule R13). -/
theorem raiseError_free {e : Err} {s : State} (h : s.handle = false) : raiseError e s = haltWith e s := by
  unfold raiseError; simp [h]

/-! ### The table of devices -/

/-- Reading after a change: the changed device changed, every other port as before. -/
theorem devLookup_devModify (k n : Nat) (f : Device → Device) (l : List (Nat × Device)) :
    devLookup n (devModify k f l) = if n = k then (devLookup n l).map f else devLookup n l := by
  induction l with
  | nil => by_cases h : n = k <;> simp [devModify, devLookup, h]
  | cons e rest ih =>
    obtain ⟨m, d⟩ := e
    by_cases hm : m = k <;> by_cases hn : n = k <;> by_cases hmn : m = n <;>
      simp_all [devModify, devLookup]

/-- A change keeps the port numbers. -/
theorem devModify_keys (k : Nat) (f : Device → Device) (l : List (Nat × Device)) :
    (devModify k f l).map Prod.fst = l.map Prod.fst := by
  induction l with
  | nil => rfl
  | cons e rest ih =>
    obtain ⟨m, d⟩ := e
    by_cases hm : m = k <;> simp [devModify, hm, ih]

/-- The canonical form speaks of the port numbers only. -/
theorem devsWf_iff_keys (l : List (Nat × Device)) : devsWf l = true ↔ (l.map Prod.fst).Pairwise (· < ·) := by
  induction l with
  | nil => simp [devsWf]
  | cons e rest ih =>
    obtain ⟨m, d⟩ := e
    simp [devsWf, ih]

/-- Every operation on the table keeps its canonical form. -/
theorem devModify_wf (k : Nat) (f : Device → Device) (l : List (Nat × Device)) :
    devsWf (devModify k f l) = devsWf l := by
  rw [Bool.eq_iff_iff, devsWf_iff_keys, devsWf_iff_keys, devModify_keys]

/-- The devices after a change at one port. -/
theorem deviceAt_modifyAt (p q : HostInt) (f : Device → Device) (s : State) :
    deviceAt (modifyAt p f s) q = if q = p then (deviceAt s q).map f else deviceAt s q := by
  unfold deviceAt
  rw [modifyAt_devs, devLookup_devModify]
  simp only [BitVec.toNat_inj]

theorem modifyLinked_none {f : Device → Device} {s : State} (h : s.link = none) : modifyLinked f s = s := by
  unfold modifyLinked; rw [h]

theorem modifyLinked_some {f : Device → Device} {s : State} {p : HostInt} (h : s.link = some p) :
    modifyLinked f s = modifyAt p f s := by
  unfold modifyLinked; rw [h]

theorem modifyLinked_devs_wf (f : Device → Device) (s : State) : devsWf (modifyLinked f s).devs = devsWf s.devs := by
  unfold modifyLinked
  split
  · rfl
  · exact devModify_wf _ _ _

theorem linked_some {s : State} {p : HostInt} (h : s.link = some p) : linked s = deviceAt s p := by
  unfold linked; rw [h]

theorem linked_none {s : State} (h : s.link = none) : linked s = none := by
  unfold linked; rw [h]

/-- The device of a port depends on the table of devices only. -/
theorem deviceAt_congr {s t : State} (h : t.devs = s.devs) (p : HostInt) : deviceAt t p = deviceAt s p := by
  unfold deviceAt; rw [h]

/-- The device of the connection depends on the table and the hold only. -/
theorem linked_congr {s t : State} (hd : t.devs = s.devs) (hl : t.link = s.link) : linked t = linked s := by
  unfold linked
  rw [hl]
  split
  · rfl
  · exact deviceAt_congr hd _

@[simp] theorem deviceAt_raiseReq (op : BitVec 3) (s : State) (p : HostInt) : deviceAt (raiseReq op s) p = deviceAt s p := rfl
@[simp] theorem deviceAt_withAnswers (l : List DevChoice) (s : State) (p : HostInt) :
    deviceAt (withAnswers l s) p = deviceAt s p := rfl
@[simp] theorem deviceAt_putPort (q : HostInt) (s : State) (p : HostInt) : deviceAt (putPort q s) p = deviceAt s p := rfl
@[simp] theorem linked_raiseReq (op : BitVec 3) (s : State) : linked (raiseReq op s) = linked s := rfl
@[simp] theorem linked_withAnswers (l : List DevChoice) (s : State) : linked (withAnswers l s) = linked s := rfl
@[simp] theorem linked_putDcb (d : Dcb) (s : State) : linked (putDcb d s) = linked s := rfl
@[simp] theorem linked_putTmo (t : Tmo) (s : State) : linked (putTmo t s) = linked s := rfl
@[simp] theorem linked_putData (k : Packet) (s : State) : linked (putData k s) = linked s := rfl

end Sys2Proof.Machine
end

