-- ==== Sys2Proof/Laws/Device.lean ====
section
/-!
SUPPORT. Laws/Device.lean: what a device transaction can do, said once: it answers if and only if the device has a choice at
hand, it touches no register of the block, and it keeps the port numbers of the device table.
-/

namespace Sys2Proof.Machine

open Sys2Proof.Safety

/-- The seven device answers. -/
def IsAnswer (f : DevChoice → State → State) : Prop :=
  f = answerOpen ∨ f = answerGetState ∨ f = answerSetState ∨ f = answerSetTimeouts ∨ f = answerWrite ∨ f = answerFlush ∨
    f = answerClose

/-- Changing the linked device leaves everything but the table of devices. -/
theorem modifyLinked_only (f : Device → Device) (s : State) :
    ∃ l, modifyLinked f s = { s with devs := l } ∧ l.map Prod.fst = s.devs.map Prod.fst := by
  refine ⟨(modifyLinked f s).devs, ?_, ?_⟩ <;> unfold modifyLinked <;> split
  · rfl
  · rfl
  · rfl
  · exact devModify_keys _ _ _

/-! ### The answers, each branch once -/

theorem answerOpen_ok {c : DevChoice} {s : State} (hc : c.ok = true) (h : canOpen s = true) :
    answerOpen c s = record (.openPort s.req.port true) (answerOk true { s with link := some s.req.port }) := by
  unfold answerOpen; rw [if_pos (by rw [hc, h]; rfl)]

theorem answerOpen_fail {c : DevChoice} {s : State} (h : (c.ok && canOpen s) = false) :
    answerOpen c s = record (.openPort s.req.port false) (answerOk false s) := by
  unfold answerOpen; rw [h]; rfl

/-- When a port can be opened (rule R186, log 14). -/
theorem canOpen_iff (s : State) :
    canOpen s = true ↔ s.link = none ∧ ∃ d, deviceAt s s.req.port = some d ∧ d.heldByOther = false := by
  unfold canOpen
  cases deviceAt s s.req.port with
  | none => simp
  | some d => simp [and_comm]

theorem answerGetState_ok {c : DevChoice} {s : State} {d : Device} (hc : c.ok = true) (h : linked s = some d) :
    answerGetState c s =
      record (.getState (some d.dcb)) { s with rsp := { s.rsp with valid := true, ok := true, dcb := d.dcb } } := by
  unfold answerGetState; rw [h]; simp [hc]

theorem answerGetState_fail {c : DevChoice} {s : State} (h : c.ok = false ∨ linked s = none) :
    answerGetState c s = record (.getState none) (answerOk false s) := by
  unfold answerGetState
  cases hl : linked s with
  | none => rfl
  | some d =>
    rcases h with h | h
    · simp [h]
    · rw [hl] at h; cases h

theorem answerSetState_ok {c : DevChoice} {s : State} {d : Device} (hc : c.ok = true) (h : linked s = some d) :
    answerSetState c s =
      record (.setState s.req.dcb true) (answerOk true (modifyLinked (fun d => { d with dcb := s.req.dcb }) s)) := by
  unfold answerSetState; rw [hc, h]; rfl

theorem answerSetState_fail {c : DevChoice} {s : State} (h : (c.ok && (linked s).isSome) = false) :
    answerSetState c s =
      record (.setState s.req.dcb false)
        (answerOk false (modifyLinked (fun d => { d with dcb := mixDcb c.dcbChanged d.dcb s.req.dcb }) s)) := by
  unfold answerSetState; rw [h]; rfl

theorem answerSetTimeouts_ok {c : DevChoice} {s : State} {d : Device} (hc : c.ok = true) (h : linked s = some d) :
    answerSetTimeouts c s =
      record (.setTimeouts s.req.tmo true) (answerOk true (modifyLinked (fun d => { d with tmo := s.req.tmo }) s)) := by
  unfold answerSetTimeouts; rw [hc, h]; rfl

theorem answerSetTimeouts_fail {c : DevChoice} {s : State} (h : (c.ok && (linked s).isSome) = false) :
    answerSetTimeouts c s =
      record (.setTimeouts s.req.tmo false)
        (answerOk false (modifyLinked (fun d => { d with tmo := c.tmoAfter.getD d.tmo }) s)) := by
  unfold answerSetTimeouts; rw [h]; rfl

theorem answerWrite_ok {c : DevChoice} {s : State} {d : Device} (hc : c.ok = true) (h : linked s = some d) :
    answerWrite c s =
      record (.write (packetOfWord s.req.data) (some c.count))
        { queueBytes c.count.toNat s with rsp := { s.rsp with valid := true, ok := true, count := c.count } } := by
  unfold answerWrite; rw [hc, h]; rfl

theorem answerWrite_fail {c : DevChoice} {s : State} (h : (c.ok && (linked s).isSome) = false) :
    answerWrite c s = record (.write (packetOfWord s.req.data) none) (answerOk false (queueBytes c.taken.val s)) := by
  unfold answerWrite; rw [h]; rfl

/-- What any device answer can do: it puts an answer on the wires, appends one transaction entry, and changes the device side;
no register of the block, none of the request wires, no list of the environment's choices. -/
theorem answer_cases {f : DevChoice → State → State} (hf : IsAnswer f) (c : DevChoice) (s : State) :
    ∃ ok d n l k e, f c s = { s with rsp := ⟨true, ok, d, n⟩, devs := l, link := k, ev := s.ev ++ [e] } ∧
      l.map Prod.fst = s.devs.map Prod.fst ∧ (∃ code, txCode e = some code) := by
  rcases hf with h | h | h | h | h | h | h <;> subst h
  · unfold answerOpen
    split
    · exact ⟨_, _, _, _, _, _, rfl, rfl, _, rfl⟩
    · exact ⟨_, _, _, _, _, _, rfl, rfl, _, rfl⟩
  · unfold answerGetState
    split
    · exact ⟨_, _, _, _, _, _, rfl, rfl, _, rfl⟩
    · split
      · exact ⟨_, _, _, _, _, _, rfl, rfl, _, rfl⟩
      · exact ⟨_, _, _, _, _, _, rfl, rfl, _, rfl⟩
  · unfold answerSetState
    split
    all_goals
      obtain ⟨l, hl, hwf⟩ := modifyLinked_only _ s
      rw [hl]
      exact ⟨_, _, _, _, _, _, rfl, hwf, _, rfl⟩
  · unfold answerSetTimeouts
    split
    all_goals
      obtain ⟨l, hl, hwf⟩ := modifyLinked_only _ s
      rw [hl]
      exact ⟨_, _, _, _, _, _, rfl, hwf, _, rfl⟩
  · unfold answerWrite queueBytes
    split
    all_goals
      obtain ⟨l, hl, hwf⟩ := modifyLinked_only _ s
      rw [hl]
      exact ⟨_, _, _, _, _, _, rfl, hwf, _, rfl⟩
  · unfold answerFlush
    obtain ⟨l, hl, hwf⟩ := modifyLinked_only (fun d => if c.drained then { d with line := d.line ++ d.txq, txq := [] } else d) s
    rw [hl]
    exact ⟨_, _, _, _, _, _, rfl, hwf, _, rfl⟩
  · unfold answerClose
    obtain ⟨l, hl, hwf⟩ := modifyLinked_only (fun d => { d with line := d.line ++ keepSent c.sent d.txq, txq := [] }) s
    rw [hl]
    exact ⟨_, _, _, _, _, _, rfl, hwf, _, rfl⟩

/-- What a transaction can do: without a choice at hand the request stays raised and nothing else changes; with one, the device
answers as `answer_cases` says. -/
theorem serve_cases {f : DevChoice → State → State} (hf : IsAnswer f) (op : BitVec 3) (s : State) :
    (s.answers = [] ∧ serve op f s = raiseReq op s) ∨
      ∃ c rest ok d n l k e, s.answers = c :: rest ∧
        serve op f s =
          { s with
            req := { s.req with valid := true, op := op }, rsp := ⟨true, ok, d, n⟩, devs := l, link := k,
            ev := s.ev ++ [e], answers := rest } ∧
        l.map Prod.fst = s.devs.map Prod.fst ∧ (∃ code, txCode e = some code) := by
  cases ha : s.answers with
  | nil => exact .inl ⟨rfl, serve_nil ha⟩
  | cons c rest =>
    obtain ⟨ok, d, n, l, k, e, he, hwf, hcode⟩ := answer_cases hf c (withAnswers rest (raiseReq op s))
    refine .inr ⟨c, rest, ok, d, n, l, k, e, rfl, ?_, hwf, hcode⟩
    rw [serve_cons ha, he]
    rfl

/-- A transaction touches no register of the block and none of its surroundings. -/
theorem serve_sameRegisters {f : DevChoice → State → State} (hf : IsAnswer f) (op : BitVec 3) (s : State) :
    sameRegisters s (serve op f s) ∧ sameSurroundings s (serve op f s) := by
  rcases serve_cases hf op s with ⟨-, h⟩ | ⟨c, rest, ok, d, n, l, k, e, -, h, -⟩ <;> rw [h] <;>
    simp [sameRegisters, sameSurroundings]

/-- A wait goes on with the settled state once the transaction has answered, else it holds the request. -/
theorem await_serve_cases {f : DevChoice → State → State} (hf : IsAnswer f) (op : BitVec 3) (s : State) (k : State → Result) :
    (s.answers = [] ∧ await (serve op f s) k = .next (raiseReq op s)) ∨
      ∃ c rest, s.answers = c :: rest ∧
        await (serve op f s) k = k (settle (f c (withAnswers rest (raiseReq op s)))) := by
  cases ha : s.answers with
  | nil => exact .inl ⟨rfl, by rw [serve_nil ha]; exact await_waits rfl⟩
  | cons c rest =>
    refine .inr ⟨c, rest, rfl, ?_⟩
    obtain ⟨ok, d, n, l, j, e, he, -⟩ := answer_cases hf c (withAnswers rest (raiseReq op s))
    rw [serve_cons ha]
    exact await_answered (by rw [he])

end Sys2Proof.Machine
end

