-- ==== Sys2Proof/Laws/Encoder.lean ====
section
/-!
SUPPORT. Laws/Encoder.lean: what the encoder's shared operation does, and the packet as a 56-bit number and back.
-/

namespace Sys2Proof.Machine

/-- The seven lanes fired in order leave exactly the packet of the data mux (40_encoder.md rule R108). -/
theorem encodeWith_eq (a p : Byte) (s : State) :
    encodeWith a p s = .next { s with pkt := pktFull (encodePacket a p), pktValid := true, upc := upcOpen } := rfl

/-- The checksum an instruction must carry is the packet's own byte 6. -/
theorem checksumOf_eq (a p : Byte) : Instr.checksumOf a p = (encodePacket a p).b6 := rfl

/-- A packet laid out as a 56-bit number reads back as itself (rules R71, R159, R160). -/
theorem packetOfWord_packetWord (k : Packet) : packetOfWord (packetWord k) = k := by
  obtain ⟨b0, b1, b2, b3, b4, b5, b6⟩ := k
  simp only [packetOfWord, packetWord, Packet.mk.injEq]
  refine ⟨?_, ?_, ?_, ?_, ?_, ?_, ?_⟩ <;>
    (apply BitVec.eq_of_getLsbD_eq
     intro i hi
     simp only [BitVec.getLsbD_extractLsb', BitVec.getLsbD_append, hi, decide_true, Bool.true_and]
     interval_cases i <;> simp)

/-- Masking a packet number masks each byte. -/
theorem packetWord_and (k m : Packet) :
    packetWord k &&& packetWord m =
      packetWord ⟨k.b0 &&& m.b0, k.b1 &&& m.b1, k.b2 &&& m.b2, k.b3 &&& m.b3, k.b4 &&& m.b4, k.b5 &&& m.b5, k.b6 &&& m.b6⟩ :=
  BitVec.and_append.trans (congrArg (_ ++ ·) (BitVec.and_append.trans (congrArg (_ ++ ·) (BitVec.and_append.trans
    (congrArg (_ ++ ·) (BitVec.and_append.trans (congrArg (_ ++ ·) (BitVec.and_append.trans
      (congrArg (_ ++ ·) BitVec.and_append)))))))))

end Sys2Proof.Machine
end

