-- ==== Sys2Proof/Laws/PerInstr.lean ====
section
/-!
SUPPORT. Laws/PerInstr.lean: the family Encoding, one lemma per constructor: an instruction's word fits its format and carries
its opcode-table row's match under the row's mask.
-/

namespace Sys2Proof.Laws.Encoding

/-- The word of an instruction fits its format's width, and under the row's mask it is the row's match. -/
def Statement (i : Instr) : Prop :=
  encode i < 2 ^ formatWidth (formatOf i) ∧ encode i &&& rowMask (formatOf i) = rowMatch i

theorem callPreset (a p c : Byte) : Statement (.callPreset a p c) := by
  refine ⟨BitVec.isLt _, ?_⟩
  have h : Machine.packetWord (packetFields a p c) &&& 0xFF00FFFFFF0000#56 = 0xFF000007000000#56 := by
    rw [show 0xFF00FFFFFF0000#56 = Machine.packetWord ⟨0xFF#8, 0#8, 0xFF#8, 0xFF#8, 0xFF#8, 0#8, 0#8⟩ from by decide]
    rw [Machine.packetWord_and]
    simp only [packetFields, BitVec.and_zero]
    decide
  have h2 := congrArg BitVec.toNat h
  rw [BitVec.toNat_and] at h2
  exact h2

theorem start : Statement .start := by unfold Statement; decide
theorem encode : Statement .encode := by unfold Statement; decide
theorem openPort : Statement .openPort := by unfold Statement; decide
theorem cfgGet : Statement .cfgGet := by unfold Statement; decide
theorem cfgSet : Statement .cfgSet := by unfold Statement; decide
theorem cfgTmo : Statement .cfgTmo := by unfold Statement; decide
theorem send : Statement .send := by unfold Statement; decide
theorem verify : Statement .verify := by unfold Statement; decide
theorem finalize : Statement .finalize := by unfold Statement; decide
theorem close : Statement .close := by unfold Statement; decide
theorem halt : Statement .halt := by unfold Statement; decide
theorem laneSync : Statement .laneSync := by unfold Statement; decide
theorem laneAddr : Statement .laneAddr := by unfold Statement; decide
theorem laneCmd1 : Statement .laneCmd1 := by unfold Statement; decide
theorem laneCmd2 : Statement .laneCmd2 := by unfold Statement; decide
theorem laneData1 : Statement .laneData1 := by unfold Statement; decide
theorem laneData2 : Statement .laneData2 := by unfold Statement; decide
theorem laneChk : Statement .laneChk := by unfold Statement; decide
theorem devOpen : Statement .devOpen := by unfold Statement; decide
theorem devGetState : Statement .devGetState := by unfold Statement; decide
theorem devSetState : Statement .devSetState := by unfold Statement; decide
theorem devSetTimeouts : Statement .devSetTimeouts := by unfold Statement; decide
theorem devWrite : Statement .devWrite := by unfold Statement; decide
theorem devFlush : Statement .devFlush := by unfold Statement; decide
theorem devClose : Statement .devClose := by unfold Statement; decide

end Sys2Proof.Laws.Encoding
end

