-- ==== Sys2Proof/Laws/Transport.lean ====
section
/-!
SUPPORT. Laws/Transport.lean: what each micro-operation with a transaction can do, said once: it waits with its request raised,
or the device has answered and the micro-operation has gone on by the answer.
-/

namespace Sys2Proof.Machine

open Sys2Proof.Safety

/-- Two device tables with the same ports, held by the same others. -/
def sameHolds (l m : List (Nat × Device)) : Prop :=
  m.map (fun e => (e.1, e.2.heldByOther)) = l.map (fun e => (e.1, e.2.heldByOther))

theorem sameHolds_refl (l : List (Nat × Device)) : sameHolds l l := rfl

/-- Changing a device without touching who holds it. -/
theorem devModify_sameHolds {f : Device → Device} (hf : ∀ d, (f d).heldByOther = d.heldByOther) (k : Nat)
    (l : List (Nat × Device)) : sameHolds l (devModify k f l) := by
  unfold sameHolds
  induction l with
  | nil => rfl
  | cons e rest ih =>
    obtain ⟨m, d⟩ := e
    by_cases hm : m = k <;> simp [devModify, hm, hf, ih]

/-- Tables that agree on holds agree, port by port, on who holds it. -/
theorem devLookup_sameHolds {l m : List (Nat × Device)} (h : sameHolds l m) (k : Nat) :
    (devLookup k m).map Device.heldByOther = (devLookup k l).map Device.heldByOther := by
  induction l generalizing m with
  | nil =>
    cases m with
    | nil => rfl
    | cons e rest => simp [sameHolds] at h
  | cons e rest ih =>
    cases m with
    | nil => simp [sameHolds] at h
    | cons e' rest' =>
      obtain ⟨n, d⟩ := e
      obtain ⟨n', d'⟩ := e'
      simp only [sameHolds, List.map_cons, List.cons.injEq, Prod.mk.injEq] at h
      obtain ⟨⟨rfl, hd⟩, hr⟩ := h
      by_cases hk : n' = k
      · simp [devLookup, hk, hd]
      · simpa [devLookup, hk] using ih hr

theorem modifyLinked_sameHolds {f : Device → Device} (hf : ∀ d, (f d).heldByOther = d.heldByOther) (s : State) :
    sameHolds s.devs (modifyLinked f s).devs := by
  unfold modifyLinked
  split
  · rfl
  · exact devModify_sameHolds hf _ _

theorem modifyLinked_eq (f : Device → Device) (s : State) : modifyLinked f s = { s with devs := (modifyLinked f s).devs } := by
  unfold modifyLinked
  split <;> rfl

/-- A state in which a device has answered: the answer is on the wires, the device side may have changed, EV has one entry more. -/
def after (s : State) (ok : Bool) (d : Dcb) (n : Count) (l : List (Nat × Device)) (k : Option HostInt) (e : Event) : State :=
  { s with rsp := ⟨true, ok, d, n⟩, devs := l, link := k, ev := s.ev ++ [e] }

/-- The state in which a micro-operation goes on: its request and the answer have left the wires. -/
def went (s : State) (op : BitVec 3) (rest : List DevChoice) (ok : Bool) (d : Dcb) (n : Count) (l : List (Nat × Device))
    (k : Option HostInt) (e : Event) : State :=
  { s with
    req := { s.req with valid := false, op := op }, rsp := ⟨false, ok, d, n⟩, devs := l, link := k, ev := s.ev ++ [e],
    answers := rest }

theorem settle_after (s : State) (op : BitVec 3) (rest : List DevChoice) (ok : Bool) (d : Dcb) (n : Count)
    (l : List (Nat × Device)) (k : Option HostInt) (e : Event) :
    settle (after (withAnswers rest (raiseReq op s)) ok d n l k e) = went s op rest ok d n l k e := rfl

@[simp] theorem went_rsp (s : State) (op : BitVec 3) (rest : List DevChoice) (ok : Bool) (d : Dcb) (n : Count)
    (l : List (Nat × Device)) (k : Option HostInt) (e : Event) : (went s op rest ok d n l k e).rsp = ⟨false, ok, d, n⟩ := rfl

/-! ### Each answer, as `after` -/

theorem answerOpen_after (c : DevChoice) (s : State) :
    (canOpen s = true ∧ answerOpen c s =
      after s true s.rsp.dcb s.rsp.count s.devs (some s.req.port) (.openPort s.req.port true)) ∨
    answerOpen c s = after s false s.rsp.dcb s.rsp.count s.devs s.link (.openPort s.req.port false) := by
  cases h : c.ok && canOpen s with
  | false => exact .inr (answerOpen_fail h)
  | true =>
    rw [Bool.and_eq_true] at h
    exact .inl ⟨h.2, answerOpen_ok h.1 h.2⟩

theorem answerGetState_after (c : DevChoice) (s : State) :
    (∃ d, linked s = some d ∧ answerGetState c s = after s true d.dcb s.rsp.count s.devs s.link (.getState (some d.dcb))) ∨
    answerGetState c s = after s false s.rsp.dcb s.rsp.count s.devs s.link (.getState none) := by
  cases hl : linked s with
  | none => exact .inr (answerGetState_fail (.inr hl))
  | some d =>
    cases hc : c.ok with
    | false => exact .inr (answerGetState_fail (.inl hc))
    | true => exact .inl ⟨d, rfl, answerGetState_ok hc hl⟩

theorem answerSetState_after (c : DevChoice) (s : State) :
    ∃ ok l, sameHolds s.devs l ∧
      answerSetState c s = after s ok s.rsp.dcb s.rsp.count l s.link (.setState s.req.dcb ok) := by
  unfold answerSetState
  split
  all_goals
    rw [modifyLinked_eq]
    refine ⟨_, _, ?_, rfl⟩
    show sameHolds s.devs (modifyLinked _ s).devs
    exact modifyLinked_sameHolds (by intro; rfl) s

theorem answerSetTimeouts_after (c : DevChoice) (s : State) :
    ∃ ok l, sameHolds s.devs l ∧
      answerSetTimeouts c s = after s ok s.rsp.dcb s.rsp.count l s.link (.setTimeouts s.req.tmo ok) := by
  unfold answerSetTimeouts
  split
  all_goals
    rw [modifyLinked_eq]
    refine ⟨_, _, ?_, rfl⟩
    show sameHolds s.devs (modifyLinked _ s).devs
    exact modifyLinked_sameHolds (by intro; rfl) s

theorem answerWrite_after (c : DevChoice) (s : State) :
    ∃ ok n l, sameHolds s.devs l ∧
      answerWrite c s =
        after s ok s.rsp.dcb n l s.link (.write (packetOfWord s.req.data) (if ok then some n else none)) := by
  unfold answerWrite queueBytes
  split
  all_goals
    rw [modifyLinked_eq]
  · refine ⟨true, c.count, _, ?_, rfl⟩
    show sameHolds s.devs (modifyLinked _ s).devs
    exact modifyLinked_sameHolds (by intro; rfl) s
  · refine ⟨false, s.rsp.count, _, ?_, rfl⟩
    show sameHolds s.devs (modifyLinked _ s).devs
    exact modifyLinked_sameHolds (by intro; rfl) s

theorem answerFlush_after (c : DevChoice) (s : State) :
    ∃ l, sameHolds s.devs l ∧ answerFlush c s = after s c.ok s.rsp.dcb s.rsp.count l s.link .flush := by
  unfold answerFlush
  rw [modifyLinked_eq]
  refine ⟨_, ?_, rfl⟩
  show sameHolds s.devs (modifyLinked _ s).devs
  exact modifyLinked_sameHolds (by intro; split <;> rfl) s

theorem answerClose_after (c : DevChoice) (s : State) :
    ∃ l, sameHolds s.devs l ∧ answerClose c s = after s c.ok s.rsp.dcb s.rsp.count l none .close := by
  unfold answerClose
  rw [modifyLinked_eq]
  refine ⟨_, ?_, rfl⟩
  show sameHolds s.devs (modifyLinked _ s).devs
  exact modifyLinked_sameHolds (by intro; rfl) s

/-! ### Each micro-operation with a transaction: it waits with its request raised, or goes on by the answer -/

/-- OPEN (rule R121). -/
theorem execOpenPort_cases {s : State} {p : HostInt} (hp : s.port = some p) :
    (s.answers = [] ∧ execOpenPort s = .next (raiseReq 0 (putPort p s))) ∨
      ∃ c rest d n, s.answers = c :: rest ∧
        ((s.link = none ∧ (∃ v, deviceAt s p = some v ∧ v.heldByOther = false) ∧
            execOpenPort s =
              .next { went (putPort p s) 0 rest true d n s.devs (some p) (.openPort p true) with
                handle := true, conn := .opened, upc := upcCfgGet }) ∨
          execOpenPort s =
            .next (haltWith .portUnavailable (went (putPort p s) 0 rest false d n s.devs s.link (.openPort p false)))) := by
  unfold execOpenPort
  rw [need_of_some hp]
  rcases await_serve_cases (f := answerOpen) (.inl rfl) 0 (putPort p s) _ with ⟨ha, h⟩ | ⟨c, rest, ha, h⟩
  · exact .inl ⟨ha, h⟩
  · refine .inr ⟨c, rest, s.rsp.dcb, s.rsp.count, ha, ?_⟩
    rcases answerOpen_after c (withAnswers rest (raiseReq 0 (putPort p s))) with ⟨hcan, h2⟩ | h2 <;> rw [h2, settle_after] at h
    · obtain ⟨hl, hd⟩ := (canOpen_iff _).1 hcan
      exact .inl ⟨hl, hd, h⟩
    · exact .inr h

/-- CFG_GET (rule R123). -/
theorem execCfgGet_cases (s : State) :
    (s.answers = [] ∧ execCfgGet s = .next (raiseReq 1 s)) ∨
      ∃ c rest d n, s.answers = c :: rest ∧
        ((∃ v, linked s = some v ∧ d = v.dcb ∧
            execCfgGet s =
              .next { went s 1 rest true d n s.devs s.link (.getState (some d)) with dcb := some d, upc := upcCfgSet }) ∨
          execCfgGet s = .next (raiseError .configFailed (went s 1 rest false d n s.devs s.link (.getState none)))) := by
  unfold execCfgGet
  rcases await_serve_cases (f := answerGetState) (.inr (.inl rfl)) 1 s _ with ⟨ha, h⟩ | ⟨c, rest, ha, h⟩
  · exact .inl ⟨ha, h⟩
  · refine .inr ⟨c, rest, ?_⟩
    rcases answerGetState_after c (withAnswers rest (raiseReq 1 s)) with ⟨v, hv, h2⟩ | h2 <;> rw [h2, settle_after] at h
    · exact ⟨_, _, ha, .inl ⟨v, hv, rfl, h⟩⟩
    · exact ⟨_, _, ha, .inr h⟩

/-- CFG_SET (rule R124). -/
theorem execCfgSet_cases {s : State} {d : Dcb} {b : HostInt} (hd : s.dcb = some d) (hb : s.baud = some b) :
    (s.answers = [] ∧ execCfgSet s = .next (raiseReq 2 (putDcb (lineSettings b d) s))) ∨
      ∃ c rest ok r n l, s.answers = c :: rest ∧ sameHolds s.devs l ∧
        execCfgSet s =
          let t := went (putDcb (lineSettings b d) s) 2 rest ok r n l s.link (.setState (lineSettings b d) ok)
          if ok then .next { t with dcb := some (lineSettings b d), upc := upcCfgTmo }
          else .next (raiseError .configFailed t) := by
  unfold execCfgSet
  rw [need_of_some hd, need_of_some hb]
  rcases await_serve_cases (f := answerSetState) (.inr (.inr (.inl rfl))) 2 (putDcb (lineSettings b d) s) _ with
    ⟨ha, h⟩ | ⟨c, rest, ha, h⟩
  · exact .inl ⟨ha, h⟩
  · obtain ⟨ok, l, hs, h2⟩ := answerSetState_after c (withAnswers rest (raiseReq 2 (putDcb (lineSettings b d) s)))
    rw [h2, settle_after] at h
    exact .inr ⟨c, rest, ok, _, _, l, ha, hs, h⟩

/-- CFG_TMO (rule R125). -/
theorem execCfgTmo_cases (s : State) :
    (s.answers = [] ∧ execCfgTmo s = .next (raiseReq 3 (putTmo tmoCfg s))) ∨
      ∃ c rest ok r n l, s.answers = c :: rest ∧ sameHolds s.devs l ∧
        execCfgTmo s =
          let t := went (putTmo tmoCfg s) 3 rest ok r n l s.link (.setTimeouts tmoCfg ok)
          if ok then .next { t with conn := .configured, upc := upcSend } else .next (raiseError .configFailed t) := by
  unfold execCfgTmo
  rcases await_serve_cases (f := answerSetTimeouts) (.inr (.inr (.inr (.inl rfl)))) 3 (putTmo tmoCfg s) _ with
    ⟨ha, h⟩ | ⟨c, rest, ha, h⟩
  · exact .inl ⟨ha, h⟩
  · obtain ⟨ok, l, hs, h2⟩ := answerSetTimeouts_after c (withAnswers rest (raiseReq 3 (putTmo tmoCfg s)))
    rw [h2, settle_after] at h
    exact .inr ⟨c, rest, ok, _, _, l, ha, hs, h⟩

/-- SEND (rule R126). -/
theorem execSend_cases {s : State} {k : Packet} (hk : s.pkt = pktFull k) :
    (s.answers = [] ∧ execSend s = .next (raiseReq 4 (putData k s))) ∨
      ∃ c rest ok r n l, s.answers = c :: rest ∧ sameHolds s.devs l ∧
        execSend s =
          let t := went (putData k s) 4 rest ok r n l s.link (.write k (if ok then some n else none))
          if ok then .next { t with bytesWritten := some n, conn := .sent, upc := upcVerify }
          else .next (raiseError .writeCallFailed t) := by
  unfold execSend
  rw [needPacket_of_full hk]
  rcases await_serve_cases (f := answerWrite) (.inr (.inr (.inr (.inr (.inl rfl))))) 4 (putData k s) _ with
    ⟨ha, h⟩ | ⟨c, rest, ha, h⟩
  · exact .inl ⟨ha, h⟩
  · obtain ⟨ok, n, l, hs, h2⟩ := answerWrite_after c (withAnswers rest (raiseReq 4 (putData k s)))
    have hw : packetOfWord (withAnswers rest (raiseReq 4 (putData k s))).req.data = k := packetOfWord_packetWord k
    rw [h2, settle_after, hw] at h
    exact .inr ⟨c, rest, ok, _, n, l, ha, hs, h⟩

/-- FINALIZE (rule R128). -/
theorem execFinalize_cases (s : State) :
    (s.answers = [] ∧ execFinalize s = .next (raiseReq 5 s)) ∨
      ∃ c rest r n l, s.answers = c :: rest ∧ sameHolds s.devs l ∧
        execFinalize s = .next { went s 5 rest c.ok r n l s.link .flush with conn := .finalized, upc := upcClose } := by
  unfold execFinalize
  rcases await_serve_cases (f := answerFlush) (.inr (.inr (.inr (.inr (.inr (.inl rfl)))))) 5 s _ with
    ⟨ha, h⟩ | ⟨c, rest, ha, h⟩
  · exact .inl ⟨ha, h⟩
  · obtain ⟨l, hs, h2⟩ := answerFlush_after c (withAnswers rest (raiseReq 5 s))
    rw [h2, settle_after] at h
    exact .inr ⟨c, rest, _, _, l, ha, hs, h⟩

/-- CLOSE (rule R129). -/
theorem execClose_cases (s : State) :
    (s.answers = [] ∧ execClose s = .next (raiseReq 6 s)) ∨
      ∃ c rest r n l, s.answers = c :: rest ∧ sameHolds s.devs l ∧
        execClose s =
          .next { went s 6 rest c.ok r n l none .close with
            handle := false, conn := .closed, exit := some (exitOf s.err), done := true, upc := upcHalt } := by
  unfold execClose
  rcases await_serve_cases (f := answerClose) (.inr (.inr (.inr (.inr (.inr (.inr rfl)))))) 6 s _ with
    ⟨ha, h⟩ | ⟨c, rest, ha, h⟩
  · exact .inl ⟨ha, h⟩
  · obtain ⟨l, hs, h2⟩ := answerClose_after c (withAnswers rest (raiseReq 6 s))
    rw [h2, settle_after] at h
    exact .inr ⟨c, rest, _, _, l, ha, hs, h⟩

end Sys2Proof.Machine
end

