-- ==== Sys2Proof/Laws/Step.lean ====
section
/-!
SUPPORT. Laws/Step.lean: what one step of the machine can do, said once: which micro-operation each UPC code fetches, and which
agent has moved.
-/

namespace Sys2Proof.Machine

open Sys2Proof.Safety

/-- What the fetch can give (30_encoding.md rule R84). -/
theorem fetch_cases {s : State} {i : Instr} (h : fetch s = .ok i) :
    (s.upc = 0 ∧ i = .start) ∨ (s.upc = 1 ∧ i = .encode) ∨ (s.upc = 2 ∧ i = .openPort) ∨ (s.upc = 3 ∧ i = .cfgGet) ∨
      (s.upc = 4 ∧ i = .cfgSet) ∨ (s.upc = 5 ∧ i = .cfgTmo) ∨ (s.upc = 6 ∧ i = .send) ∨ (s.upc = 7 ∧ i = .verify) ∨
      (s.upc = 8 ∧ i = .finalize) ∨ (s.upc = 9 ∧ i = .close) ∨ (s.upc = 10 ∧ i = .halt) := by
  have h : decodeUpc s.upc = .ok i := by
    unfold fetch at h
    split at h
    · cases h; assumption
    · cases h
  unfold decodeUpc at h
  split at h <;> rename_i hc <;> cases h <;> simp only [reduceCtorEq, and_true, and_false, or_false, false_or]
  all_goals exact BitVec.eq_of_toNat_eq hc

theorem sameRegisters_refl (s : State) : sameRegisters s s :=
  ⟨rfl, rfl, rfl, rfl, rfl, rfl, rfl, rfl, rfl, rfl, rfl, rfl, rfl, rfl⟩

/-- What a step can be: the sequencer ran the fetched micro-operation from the same state but for the list of turns; or the block
was reset in IDLE or HALT; or another agent moved, and then registers, EV, the hold and the device wires are as before, and of the
device table either who holds what is the same, or one port not held by this block is taken, or one port is given up by another. -/
theorem step_cases {s t : State} (h : step s = .next t) :
    (∃ r i, fetch { s with turns := r } = .ok i ∧ exec i { s with turns := r } = .next t) ∨
      (∃ r, t = resetBlock { s with turns := r } ∧ (s.upc = upcIdle ∨ s.upc = upcHalt)) ∨
      (sameRegisters s t ∧ t.ev = s.ev ∧ t.link = s.link ∧ t.req = s.req ∧ t.rsp = s.rsp ∧
        (sameHolds s.devs t.devs ∨
          (∃ p : HostInt, s.link ≠ some p ∧ t.devs = devModify p.toNat (fun d => { d with heldByOther := true }) s.devs) ∨
          ∃ p : HostInt, t.devs = devModify p.toNat (fun d => { d with heldByOther := false }) s.devs)) := by
  have seq : ∀ r, sequencerStep { s with turns := r } = .next t →
      ∃ r i, fetch { s with turns := r } = .ok i ∧ exec i { s with turns := r } = .next t := by
    intro r h
    unfold sequencerStep at h
    split at h
    · rename_i i hi; exact ⟨r, i, hi, h⟩
    · cases h
  unfold step at h
  split at h
  · exact .inl (seq s.turns h)
  · split at h
    · exact .inl (seq _ h)
    · cases h
      exact .inr (.inr ⟨sameRegisters_refl s, rfl, rfl, rfl, rfl,
        .inl (devModify_sameHolds (by intro d; unfold drainByte; split <;> rfl) _ _)⟩)
    · cases h; exact .inr (.inr ⟨sameRegisters_refl s, rfl, rfl, rfl, rfl, .inl rfl⟩)
    · simp only [environmentMove] at h
      split at h
      · rename_i hr
        cases h
        exact .inr (.inl ⟨_, rfl, by simpa [resetAllowed] using hr⟩)
      · cases h
    · rename_i p _
      cases h
      unfold otherOpens
      split
      · exact .inr (.inr ⟨sameRegisters_refl s, rfl, rfl, rfl, rfl, .inl rfl⟩)
      · rename_i hp
        exact .inr (.inr ⟨sameRegisters_refl s, rfl, rfl, rfl, rfl, .inr (.inl ⟨p, hp, rfl⟩)⟩)
    · rename_i p _
      cases h
      exact .inr (.inr ⟨sameRegisters_refl s, rfl, rfl, rfl, rfl, .inr (.inr ⟨p, rfl⟩)⟩)
    · cases h; exact .inr (.inr ⟨sameRegisters_refl s, rfl, rfl, rfl, rfl, .inl rfl⟩)
    · cases h
      unfold portSettingsChange
      split
      · exact .inr (.inr ⟨sameRegisters_refl s, rfl, rfl, rfl, rfl, .inl rfl⟩)
      · exact .inr (.inr ⟨sameRegisters_refl s, rfl, rfl, rfl, rfl, .inl (devModify_sameHolds (by intro; rfl) _ _)⟩)

end Sys2Proof.Machine
end

