-- ==== Sys2Proof/Tests/Slice0.lean ====
section
/-!
SUPPORT. Tests/Slice0.lean: the model's own tests. Expected values come from spec/95_test_vectors.md and the tables of
spec/30_encoding.md; each docstring names its source. After them, a witness for the hypotheses of every obligation that has any.
-/

namespace Sys2Proof.Tests

open Sys2Proof Sys2Proof.Machine Sys2Proof.Safety

/-! ## WellFormed: an ill-formed term for each check -/

/-- 95_test_vectors.md section 2.3, row by row. -/
theorem test_wellformed_accepts : (Packet.mk 0xFF 0x01 0x00 0x07 0x00 0x01 0x09).wellFormed = true ∧
    (Packet.mk 0xFF 0x02 0x00 0x07 0x00 0x10 0x19).wellFormed = true ∧
    (Packet.mk 0xFF 0x00 0x00 0x07 0x00 0x01 0x08).wellFormed = true := by decide

theorem test_wellformed_refuses_sync : (Packet.mk 0xFE 0x01 0x00 0x07 0x00 0x01 0x09).wellFormed = false := by decide
theorem test_wellformed_refuses_cmd1 : (Packet.mk 0xFF 0x01 0x01 0x07 0x00 0x01 0x0A).wellFormed = false := by decide
theorem test_wellformed_refuses_cmd2 : (Packet.mk 0xFF 0x01 0x00 0x08 0x00 0x01 0x0A).wellFormed = false := by decide
theorem test_wellformed_refuses_data1 : (Packet.mk 0xFF 0x01 0x00 0x07 0x01 0x01 0x0A).wellFormed = false := by decide
theorem test_wellformed_refuses_checksum : (Packet.mk 0xFF 0x01 0x00 0x07 0x00 0x01 0x0A).wellFormed = false := by decide
theorem test_wellformed_refuses_instr :
    (Instr.callPreset 0x01 0x01 0x0A).wellFormed = false ∧ (Instr.callPreset 0x01 0x01 0x09).wellFormed = true := by decide

/-! ## Decode: a word for every constructor, written out from the encoding tables -/

/-- 30_encoding.md rule R71: `11111111 aaaaaaaa 00000000 00000111 00000000 pppppppp cccccccc` with a = 1, p = 1, c = 9 (P1). -/
theorem test_decode_packet :
    decodeWord .pkt7 0b11111111000000010000000000000111000000000000000100001001 = .ok (.callPreset 1 1 9) := by decide

/-- 30_encoding.md rule R84. -/
theorem test_decode_upc :
    decodeWord .upc4 0b0000 = .ok .start ∧ decodeWord .upc4 0b0001 = .ok .encode ∧ decodeWord .upc4 0b0010 = .ok .openPort ∧
    decodeWord .upc4 0b0011 = .ok .cfgGet ∧ decodeWord .upc4 0b0100 = .ok .cfgSet ∧ decodeWord .upc4 0b0101 = .ok .cfgTmo ∧
    decodeWord .upc4 0b0110 = .ok .send ∧ decodeWord .upc4 0b0111 = .ok .verify ∧ decodeWord .upc4 0b1000 = .ok .finalize ∧
    decodeWord .upc4 0b1001 = .ok .close ∧ decodeWord .upc4 0b1010 = .ok .halt := by decide

/-- 30_encoding.md rule R87. -/
theorem test_decode_lane :
    decodeWord .lane3 0b000 = .ok .laneSync ∧ decodeWord .lane3 0b001 = .ok .laneAddr ∧ decodeWord .lane3 0b010 = .ok .laneCmd1 ∧
    decodeWord .lane3 0b011 = .ok .laneCmd2 ∧ decodeWord .lane3 0b100 = .ok .laneData1 ∧
    decodeWord .lane3 0b101 = .ok .laneData2 ∧ decodeWord .lane3 0b110 = .ok .laneChk := by decide

/-- 30_encoding.md rule R82. -/
theorem test_decode_devop :
    decodeWord .devop3 0b000 = .ok .devOpen ∧ decodeWord .devop3 0b001 = .ok .devGetState ∧
    decodeWord .devop3 0b010 = .ok .devSetState ∧ decodeWord .devop3 0b011 = .ok .devSetTimeouts ∧
    decodeWord .devop3 0b100 = .ok .devWrite ∧ decodeWord .devop3 0b101 = .ok .devFlush ∧
    decodeWord .devop3 0b110 = .ok .devClose := by decide

/-- Rules R86, R87, R82 and section 2.3: what decodes to nothing, by name. -/
theorem test_decode_rejects :
    decodeWord .upc4 11 = .error .noMicroOp ∧ decodeWord .upc4 15 = .error .noMicroOp ∧ decodeWord .upc4 16 = .error .tooWide ∧
    decodeWord .lane3 7 = .error .noLane ∧ decodeWord .devop3 7 = .error .noTransaction ∧
    decodeWord .pkt7 0xFE010007000109 = .error .badSync ∧ decodeWord .pkt7 0xFF010107000109 = .error .badCmd1 ∧
    decodeWord .pkt7 0xFF010008000109 = .error .badCmd2 ∧ decodeWord .pkt7 0xFF010007010109 = .error .badData1 ∧
    decodeWord .pkt7 0xFF01000700010A = .error .badChecksum ∧ decodeBytes .pkt7 [0xFF, 0x01] = .error .wrongLength := by decide

/-- The encoder writes the same words (P1, P5 of section 6), and bytes in wire order. -/
theorem test_encode :
    encode (.callPreset 0x01 0x01 0x09) = 0xFF010007000109 ∧ encode (.callPreset 0xFF 0xFF 0x05) = 0xFFFF000700FF05 ∧
    encodeBytes (.callPreset 0x02 0x10 0x19) = [0xFF, 0x02, 0x00, 0x07, 0x00, 0x10, 0x19] ∧ encodeBytes .send = [0x06] := by decide

/-! ## The encoder's arithmetic -/

/-- 95_test_vectors.md section 2.1, rows E1, E2, E7 (wraps twice), E9 (checksum 0), E13 (checksum FF). -/
theorem test_encode_rows :
    packetBytes (encodePacket 0x01 0x01) = [0xFF, 0x01, 0x00, 0x07, 0x00, 0x01, 0x09] ∧
    packetBytes (encodePacket 0x02 0x10) = [0xFF, 0x02, 0x00, 0x07, 0x00, 0x10, 0x19] ∧
    packetBytes (encodePacket 0xFF 0xFF) = [0xFF, 0xFF, 0x00, 0x07, 0x00, 0xFF, 0x05] ∧
    packetBytes (encodePacket 0x01 0xF8) = [0xFF, 0x01, 0x00, 0x07, 0x00, 0xF8, 0x00] ∧
    packetBytes (encodePacket 0xC8 0x30) = [0xFF, 0xC8, 0x00, 0x07, 0x00, 0x30, 0xFF] := by decide

/-- Section 2.1, rows E3, E15, E17, E18, E19: truncation of host integers, whatever IN_W is. -/
theorem test_truncation :
    trunc8 (BitVec.ofInt Config.inW 256) = 0x00 ∧ trunc8 (BitVec.ofInt Config.inW (-1)) = 0xFF ∧
    trunc8 (BitVec.ofInt Config.inW 300) = 0x2C ∧ trunc8 (BitVec.ofInt Config.inW (-256)) = 0x00 ∧
    trunc8 (BitVec.ofInt Config.inW (-2147483648)) = 0x00 := by
  simp only [trunc8_ofInt]; decide

/-- Section 3.4 and section 5: timeout bounds; the frame of 09; 583 baud is too slow and 584 is not. -/
theorem test_line :
    writeBound tmoCfg 0 = 50 ∧ writeBound tmoCfg 3 = 80 ∧ writeBound tmoCfg 7 = 120 ∧
    frame 0x09 = [false, true, false, false, true, false, false, false, false, true] ∧
    fitsWriteBound 583 (encodePacket 1 1) = false ∧ fitsWriteBound 584 (encodePacket 1 1) = true := by
  refine ⟨rfl, rfl, rfl, rfl, ?_, ?_⟩ <;> simp [fitsWriteBound, lineBits, packetBytes, frame, writeBound, tmoCfg, pktLen]

/-- Section 4.3: the exit status of each error, and its code. -/
theorem test_exit :
    exitOf .none = false ∧ exitOf .argumentError = true ∧ exitOf .portUnavailable = true ∧ exitOf .configFailed = true ∧
    exitOf .writeCallFailed = true ∧ exitOf .shortWrite = false ∧ errCode .shortWrite = 5 ∧ connCode .closed = 5 := by decide

/-! ## One step on a small state -/

/-- d0 of the test vectors: baud 0 stands for any, seven data bits, another stop-bit and parity setting, `other` = X. -/
def d0 : Dcb := ⟨0, 7, .other 2, .other 3, [0xAB]⟩
/-- d1(0): the block's line settings with the same `other`. -/
def d1 : Dcb := ⟨0, 8, .one, .none, [0xAB]⟩
/-- A free device. -/
def dev0 : Device := ⟨false, d0, Tmo.idle, [], []⟩
/-- A device's count of three bytes. -/
def three : Count := BitVec.ofNat Config.cntW 3
/-- The packet of camera 1 and preset 1. -/
def pkt11 : Packet := ⟨0xFF, 0x01, 0x00, 0x07, 0x00, 0x01, 0x09⟩

/-- Just after ENCODE: camera 1, preset 1, port 0 exists and is free, the device answers `c`. -/
def built0 (u : BitVec 4) (c : List DevChoice) : State :=
  { State.reset with
    cam := some 0x01, preset := some 0x01, baud := some 0, port := some 0, pkt := pktFull pkt11, pktValid := true, upc := u,
    devs := [(0, dev0)], answers := c }

/-- The same with the connection held. -/
def held0 (u : BitVec 4) (k : Conn) (c : List DevChoice) : State :=
  { built0 u c with handle := true, conn := k, link := some 0, dcb := some d0, bytesWritten := some three }

/-- The next state, if there is one. -/
def nextOf (o : Result) : Option State :=
  match o with
  | .next s => some s
  | .fault _ => none
  | .refused _ => none

/-- A device that answers Fail. -/
def unwilling : DevChoice := { willing with ok := false }

/-- Section 3.2, first row. -/
theorem test_open_ok : (nextOf (step (built0 2 [willing]))).map (fun t => (t.handle, t.conn, t.err, t.upc, t.ev)) =
    some (true, .opened, .none, 3, [.openPort 0 true]) := rfl

/-- Section 3.2, second row: the device fails to open; the direct halt, no Close. -/
theorem test_open_fails : (nextOf (step (built0 2 [unwilling]))).map (fun t => (t.handle, t.conn, t.err, t.upc, t.exit, t.ev)) =
    some (false, .closed, .portUnavailable, 10, some true, [.openPort 0 false, .diag (.error .portUnavailable)]) := rfl

/-- Section 3.3: DCB is d0 after CFG_GET. -/
theorem test_cfg_get : (nextOf (step (held0 3 .opened [willing]))).map (fun t => (t.dcb, t.upc)) = some (some d0, 4) := rfl

/-- Section 3.3: the request of CFG_SET is d1, `other` as read; the shadow follows on Ok. -/
theorem test_cfg_set : (nextOf (step (held0 4 .opened [willing]))).map (fun t => (t.dcb, t.ev, t.upc)) =
    some (some d1, [.setState d1 true], 5) := rfl

/-- Section 3.3: on Fail the shadow stays d0 and ConfigFailed goes to CLOSE. -/
theorem test_cfg_set_fails : (nextOf (step (held0 4 .opened [unwilling]))).map (fun t => (t.dcb, t.err, t.upc)) =
    some (some d0, .configFailed, 9) := rfl

/-- Section 3.3: the constant timeout record. -/
theorem test_cfg_tmo : (nextOf (step (held0 5 .opened [willing]))).map (fun t => (t.conn, t.ev)) =
    some (.configured, [.setTimeouts ⟨Config.tReadIntervalMs, 10, 50, 10, 50⟩ true]) := rfl

/-- Section 4.1, row Fail: CONN stays Configured and BYTES_WRITTEN is not written (here it keeps what it held). -/
theorem test_send_fails : (nextOf (step (held0 6 .configured [unwilling]))).map (fun t => (t.conn, t.err, t.upc, t.bytesWritten)) =
    some (.configured, .writeCallFailed, 9, some three) := rfl

/-- Section 4.1, row Ok(3): three bytes are queued, in index order. -/
theorem test_send_short : (nextOf (step (held0 6 .configured [{ willing with count := three }]))).map
    (fun t => (t.bytesWritten, t.conn, (deviceAt t 0).map (·.txq))) = some (some three, .sent, some [0xFF, 0x01, 0x00]) := by
  have h : three.toNat = 3 := count_toNat (by decide)
  show some (some three, Conn.sent, some (List.take three.toNat _)) = _
  rw [h]
  rfl

/-- Section 4.1, row Ok(3): VERIFY reports the partial count and goes on. -/
theorem test_verify_short : (nextOf (step (held0 7 .sent []))).map (fun t => (t.err, t.ev, t.upc)) =
    some (.shortWrite, [.diag (.partialWrite three)], 8) := by
  have h : three.toNat = 3 := count_toNat (by decide)
  have hf : fullCount three = false := by unfold fullCount; rw [h]; rfl
  show (nextOf (if fullCount three = true then _ else _)).map _ = _
  rw [hf]
  rfl

/-- Rule R128: FINALIZE flushes and goes to CLOSE. -/
theorem test_finalize : (nextOf (step (held0 8 .sent [willing]))).map (fun t => (t.conn, t.ev, t.upc)) =
    some (.finalized, [.flush], 9) := rfl

/-- Section 4.2, T3 to T6: CLOSE after a configuration failure. -/
theorem test_close : (nextOf (step { held0 9 .opened [willing] with err := .configFailed })).map
    (fun t => (t.handle, t.conn, t.exit, t.done, t.upc, t.link)) = some (false, .closed, some true, true, 10, none) := rfl

/-- 42_interfaces.md rule R160: dev_rsp_ok is ignored for Flush. -/
theorem test_finalize_ignores_ok : (nextOf (step (held0 8 .sent [unwilling]))).map (fun t => (t.conn, t.err, t.upc)) =
    some (.finalized, .none, 9) := rfl
/-- 60_exceptions.md rule R185: a request that waits is answered by a step of the device's own. -/
theorem test_answer_ends_wait :
    (nextOf (step (held0 9 .finalized []))).bind (fun w => (nextOf (step { w with turns := [.answer willing] })).bind
      fun u => (nextOf (step u)).map fun t => (w.req.valid, t.req.valid, t.upc, t.done)) = some (true, false, 10, true) := rfl
/-- 93_implementation_defined.md U18: after the session the port's settings can be others. -/
theorem test_settings_change :
    (nextOf (step { built0 10 [] with turns := [.portSettings 0 (lineSettings 0 d0) Tmo.idle] })).map (fun t => t.devs) =
      some [(0, { dev0 with dcb := lineSettings 0 d0, tmo := Tmo.idle })] := rfl
/-- Rule R130: start is ignored in HALT. -/
theorem test_halt : step { built0 10 [] with inp := ⟨true, 0, 0, 0, 0⟩ } = .next { built0 10 [] with inp := ⟨true, 0, 0, 0, 0⟩ } := rfl

/-- Section 2.2: the seven lanes one by one, CAM = 02 and PRESET = 10. -/
theorem test_lanes : ∀ i : Fin 7, lane 0x02 0x10 i = ([0xFF, 0x02, 0x00, 0x07, 0x00, 0x10, 0x19] : List Byte)[i] := by decide

/-- Rule R90: a reference device with nothing queued answers an empty flush. -/
theorem test_dev_flush : (nextOf (exec .devFlush (held0 8 .sent [willing]))).map (fun t => (t.rsp.valid, t.ev)) =
    some (true, [.flush]) := rfl

/-- 10_state.md rule R44: ENCODE right after reset faults. -/
theorem test_unwritten : exec .encode State.reset = .fault (.unwritten .cam) := rfl

/-- 42_interfaces.md rule R151 (section 1, S8): preset 0 is rejected and the block is not started. -/
theorem test_preset_zero : sendPreset ⟨.absent, .value 0, .absent, .absent⟩ State.reset = .rejected .argumentError true := rfl

/-- What withFetchWord places is what the next step runs: a packet, and the UPC code of SEND. -/
theorem test_fetch_word : (nextOf (step (State.reset.withFetchWord 56 0xFF010007000109))).map (fun t => (t.pkt, t.upc)) =
    some (pktFull pkt11, 2) ∧
    (nextOf (step (State.reset.withFetchWord 8 4))).map (fun t => t.req.op) = some 2 := ⟨rfl, rfl⟩

/-! ## Witnesses: states that meet the hypotheses of the obligations, clause by clause -/

/-- A host that starts the block with camera 256, preset 1, port 0. -/
def go : HostIn := ⟨true, BitVec.ofInt Config.inW 256, BitVec.ofInt Config.inW 1, 0, 0⟩

/-- IDLE with the strobe up, a free device on port 0 and answers `c`. -/
def idle0 (c : List DevChoice) : State := { State.reset with inp := go, devs := [(0, dev0)], answers := c }

/-- The history of a session that wrote the packet and got the count `n`. -/
def wrote (n : Count) : List Event :=
  configured 0 d0 0 ++ [.write (encodePacket 1 1) (some n), .diag (verdict (encodePacket 1 1) n), .flush]

/-- HALT after a short write of no byte. -/
def doneShort : State :=
  { built0 10 [] with
    dcb := some (lineSettings 0 d0), bytesWritten := some 0, conn := .closed, err := .shortWrite, done := true,
    exit := some false, ev := wrote 0 ++ [.close] }

/-- A count of seven. -/
def seven : Count := BitVec.ofNat Config.cntW 7

/-- HALT after a clean session. -/
def doneClean : State := { doneShort with bytesWritten := some seven, err := .none, ev := wrote seven ++ [.close] }

/-- HALT after a GetState that failed. -/
def doneFailed : State :=
  { built0 10 [] with
    conn := .closed, err := .configFailed, done := true, exit := some true,
    ev := [.openPort 0 true, .getState none, .diag (.error .configFailed), .close] }

/-- HALT after an Open that failed. -/
def doneUnavailable : State :=
  { built0 10 [] with
    conn := .closed, err := .portUnavailable, done := true, exit := some true,
    ev := [.openPort 0 false, .diag (.error .portUnavailable)] }

theorem witness_sessionInv_idle (c : List DevChoice) : sessionInv (idle0 c) := ⟨rfl, rfl, rfl, rfl⟩
theorem witness_sessionInv_open (c : List DevChoice) : sessionInv (built0 2 c) := ⟨rfl, rfl, rfl, rfl⟩
theorem witness_sessionInv_short : sessionInv doneShort :=
  ⟨rfl, rfl, rfl, 1, 1, 0, 0, rfl, rfl, rfl, rfl, .inr ⟨_, .written d0 0, rfl⟩⟩
theorem witness_sessionInv_failed : sessionInv doneFailed :=
  ⟨rfl, rfl, rfl, 1, 1, 0, 0, rfl, rfl, rfl, rfl, .inr ⟨_, .getFailed, rfl⟩⟩
theorem witness_sessionInv_unavailable : sessionInv doneUnavailable :=
  ⟨rfl, rfl, rfl, 1, 1, 0, 0, rfl, rfl, rfl, rfl, .inl ⟨rfl, rfl, rfl, rfl⟩⟩
theorem witness_sessionInv_clean : sessionInv doneClean := by
  have h : seven.toNat = 7 := count_toNat (by decide)
  have he : verdictErr seven = .none := by unfold verdictErr fullCount; rw [h]; rfl
  refine ⟨rfl, rfl, rfl, 1, 1, 0, 0, rfl, rfl, rfl, rfl, .inr ⟨wrote seven, ?_, rfl⟩⟩
  have := Attempt.written (a := 1) (pr := 1) (p := 0) (b := 0) d0 seven
  rw [he] at this
  exact this

theorem witness_ResetKeepsTheDevice :
    { doneShort with turns := [.reset] }.turns = .reset :: [] ∧ doneShort.upc = upcHalt ∧ (idle0 []).upc = upcIdle := ⟨rfl, rfl, rfl⟩
theorem witness_ResetDuringASessionIsRefused :
    { held0 6 .configured [] with turns := [.reset] }.turns = .reset :: [] ∧ (held0 6 .configured []).upc ≠ upcIdle ∧
    (held0 6 .configured []).upc ≠ upcHalt := ⟨rfl, by decide, by decide⟩
theorem witness_StepRunsTheDecodedMicroOp :
    decodeUpc (held0 6 .configured []).upc = .ok .send ∧ (held0 6 .configured []).turns = [] ∧
    { held0 6 .configured [] with turns := [.sequencer, .reset] }.turns = .sequencer :: [.reset] := ⟨rfl, rfl, rfl⟩
theorem witness_UpcCodesSelectTheMicroOps :
    (∀ n : Fin 11, (built0 (BitVec.ofNat 4 n.val) []).upc.toNat = n.val) ∧ ∀ u, (built0 u []).turns = [] :=
  ⟨by show ∀ n : Fin 11, (BitVec.ofNat 4 n.val).toNat = n.val; decide, fun _ => rfl⟩
theorem witness_UpcCodesFromElevenAreRefused :
    11 ≤ (built0 11 []).upc.toNat ∧ 11 ≤ (built0 15 []).upc.toNat ∧ (built0 11 []).turns = [] := ⟨by decide, by decide, rfl⟩
theorem witness_StartSamplesAndTruncates : (idle0 []).inp.start = true ∧ State.reset.inp.start = false := ⟨rfl, rfl⟩
theorem witness_InputsAreSampledByStartOnly : Instr.encode ≠ .start ∧ ∃ t, exec .encode (built0 1 []) = .next t :=
  ⟨by decide, _, rfl⟩
theorem witness_EncodeBuildsThePacket : (built0 1 []).cam = some 0x01 ∧ (built0 1 []).preset = some 0x01 := ⟨rfl, rfl⟩
theorem witness_OperandLanesCopyTheirRegister : (built0 1 []).cam = some 0x01 ∧ (built0 1 []).preset = some 0x01 := ⟨rfl, rfl⟩
theorem witness_ChecksumLaneSumsTheBuffer :
    (built0 1 []).pkt.r1 = some 0x01 ∧ (built0 1 []).pkt.r2 = some 0x00 ∧ (built0 1 []).pkt.r3 = some 0x07 ∧
    (built0 1 []).pkt.r4 = some 0x00 ∧ (built0 1 []).pkt.r5 = some 0x01 := ⟨rfl, rfl, rfl, rfl, rfl⟩
theorem witness_CallPresetBuildsItsPacket :
    (0x05 : Byte).toNat = ((0xFF : Byte).toNat + (0xFF : Byte).toNat + 7) % 256 ∧
    (0x0A : Byte).toNat ≠ ((0x01 : Byte).toNat + (0x01 : Byte).toNat + 7) % 256 := by decide
theorem witness_PacketDependsOnInputsModulo256 :
    (idle0 []).inp.start = true ∧ (idle0 []).inp.camIn = BitVec.ofInt Config.inW 256 ∧
    (idle0 []).inp.presetIn = BitVec.ofInt Config.inW 1 ∧
    { go with camIn := 0 }.camIn = BitVec.ofInt Config.inW (256 % 256) ∧ go.presetIn = BitVec.ofInt Config.inW (1 % 256) :=
  ⟨rfl, rfl, rfl, by simp, rfl⟩
theorem witness_ChecksumSeesEverySingleChange :
    (0x02 : Byte) ≠ pkt11.b1 ∧ (0x02 : Byte) ≠ pkt11.b2 ∧ (0x02 : Byte) ≠ pkt11.b3 ∧ (0x02 : Byte) ≠ pkt11.b4 ∧
    (0x81 : Byte) ≠ pkt11.b5 := by decide
theorem witness_PacketIsImmutableOnceBuilt :
    (formatOf .send = .upc4 ∧ Instr.send ≠ .encode) ∧ formatOf .devWrite = .devop3 ∧
    (∃ t, exec .send (held0 6 .configured [willing]) = .next t) ∧ ∃ t, exec .devWrite (held0 6 .configured [willing]) = .next t :=
  ⟨by decide, by decide, ⟨_, rfl⟩, _, rfl⟩
/-- OPEN and DEV_OPEN: the port answers, is missing, or is held by another. -/
theorem witness_OpenFollowsTheAnswer :
    (built0 2 [willing]).port = some 0 ∧ (built0 2 [willing]).answers = willing :: [] ∧ willing.ok = true ∧ unwilling.ok = false ∧
    (built0 2 [willing]).link = none ∧ (deviceAt (built0 2 [willing]) 0 = some dev0 ∧ dev0.heldByOther = false) ∧
    deviceAt { built0 2 [willing] with devs := [] } 0 = none ∧
    deviceAt { built0 2 [willing] with devs := [(0, { dev0 with heldByOther := true })] } 0 =
      some { dev0 with heldByOther := true } := ⟨rfl, rfl, rfl, rfl, rfl, ⟨rfl, rfl⟩, rfl, rfl⟩
theorem witness_DevOpenAnswers :
    (built0 2 [willing]).req.port = 0 ∧ (built0 2 [willing]).answers = willing :: [] ∧ (built0 2 [willing]).link = none ∧
    deviceAt (built0 2 [willing]) (built0 2 [willing]).req.port = some dev0 ∧ dev0.heldByOther = false :=
  ⟨rfl, rfl, rfl, rfl, rfl⟩
/-- CFG_GET, CFG_SET, CFG_TMO, SEND, FINALIZE, CLOSE and the transactions inside the connection. -/
theorem witness_the_connection (u : BitVec 4) (k : Conn) (c : DevChoice) (rest : List DevChoice) :
    (held0 u k (c :: rest)).handle = true ∧ (held0 u k (c :: rest)).link = some 0 ∧
    deviceAt (held0 u k (c :: rest)) 0 = some dev0 ∧ (held0 u k (c :: rest)).answers = c :: rest ∧
    (held0 u k (c :: rest)).dcb = some d0 ∧ (held0 u k (c :: rest)).baud = some 0 ∧
    (held0 u k (c :: rest)).pkt = pktFull pkt11 ∧ (held0 u k (c :: rest)).bytesWritten = some three :=
  ⟨rfl, rfl, rfl, rfl, rfl, rfl, rfl, rfl⟩
theorem witness_VerifyComparesWithSeven :
    seven.toNat = 7 ∧ three.toNat ≠ 7 ∧ { held0 7 .sent [] with bytesWritten := some seven }.bytesWritten = some seven ∧
    (held0 7 .sent []).pkt = pktFull pkt11 := by
  refine ⟨count_toNat (by decide), ?_, rfl, rfl⟩
  rw [show three.toNat = 3 from count_toNat (by decide)]
  decide
theorem witness_OnlyCloseClearsHandle :
    (held0 9 .finalized [willing]).handle = true ∧
    (nextOf (exec .close (held0 9 .finalized [willing]))).map (·.handle) = some false := ⟨rfl, rfl⟩
theorem witness_RaiseClosesOrHalts :
    isFatal .configFailed = true ∧ isFatal .portUnavailable = true ∧ (held0 3 .opened []).handle = true ∧
    (built0 2 []).handle = false := ⟨rfl, rfl, rfl, rfl⟩
theorem witness_UnansweredRequestIsHeld (u : BitVec 4) (k : Conn) :
    (held0 u k []).answers = [] ∧ (held0 u k []).port = some 0 ∧ (held0 u k []).dcb = some d0 ∧ (held0 u k []).baud = some 0 ∧
    (held0 u k []).pkt = pktFull pkt11 ∧ (∃ w, exec .close (held0 u k []) = .next w) ∧
    { held0 u k [] with turns := [.answer willing] }.turns = .answer willing :: [] := ⟨rfl, rfl, rfl, rfl, rfl, ⟨_, rfl⟩, rfl⟩
theorem witness_UnwrittenRegistersFault :
    State.reset.cam = none ∧ State.reset.preset = none ∧ State.reset.port = none ∧ State.reset.dcb = none ∧
    State.reset.bytesWritten = none ∧ ({ State.reset with cam := some 1 }.cam ≠ none) ∧
    ({ State.reset with dcb := some d0 }.dcb ≠ none) ∧ State.reset.baud = none ∧ pktGet State.reset.pkt 0 = none ∧
    (1 ≤ (1 : Fin 7) ∧ (1 : Fin 7) ≤ 5 ∧ pktGet State.reset.pkt 1 = none) ∧ (5 : Fin 7) ≤ 5 ∧ pktGet State.reset.pkt 5 = none :=
  ⟨rfl, rfl, rfl, rfl, rfl, by simp, by simp, rfl, rfl, ⟨by decide, by decide, rfl⟩, by decide, rfl⟩
theorem witness_DevWriteQueuesAPrefix :
    { held0 6 .configured [willing] with
      req := { (held0 6 .configured [willing]).req with data := packetWord pkt11 } }.req.data = packetWord pkt11 := rfl
theorem witness_TransactionsOutsideTheConnection :
    (built0 3 [willing]).answers = willing :: [] ∧ (built0 3 [willing]).link = none ∧ (held0 3 .opened [willing]).link ≠ none :=
  ⟨rfl, rfl, by simp [held0]⟩
theorem witness_DrainMovesTheHeadByte :
    { held0 6 .sent [] with turns := [.drain 0] }.turns = .drain 0 :: [] ∧
    deviceAt { held0 6 .sent [] with devs := [(0, { dev0 with txq := [0xFF, 0x01] })], turns := [.drain 0] } 0 =
      some { dev0 with txq := [0xFF, 0x01] } := ⟨rfl, rfl⟩
theorem witness_HoldIsExclusive :
    { held0 6 .sent [] with turns := [.otherOpen 0] }.turns = .otherOpen 0 :: [] ∧ (held0 6 .sent []).link = some 0 ∧
    { held0 6 .sent [] with turns := [.portSettings 0 d0 Tmo.idle] }.turns = .portSettings 0 d0 Tmo.idle :: [] ∧
    { built0 2 [willing] with turns := [.otherOpen 0] }.turns = .otherOpen 0 :: [] ∧ (built0 2 [willing]).link = none ∧
    deviceAt (built0 2 [willing]) 0 = some dev0 ∧ (built0 2 [willing]).port = some 0 ∧ (built0 2 [willing]).answers = willing :: [] :=
  ⟨rfl, rfl, rfl, rfl, rfl, rfl, rfl, rfl⟩
theorem witness_DecodeOfEncodeIsTheInstruction :
    (Instr.callPreset 0xFF 0xFF 0x05).wellFormed = true ∧ Instr.devClose.wellFormed = true := by decide
theorem witness_EncodeOfDecodeIsTheWord :
    decodeWord .pkt7 0xFFFF000700FF05 = .ok (.callPreset 0xFF 0xFF 0x05) ∧ decodeWord .upc4 10 = .ok .halt ∧
    decodeWord .lane3 6 = .ok .laneChk ∧ decodeWord .devop3 6 = .ok .devClose := by decide
theorem witness_every_step_invariants :
    stageTable (built0 2 [willing]) = true ∧ holdInv (built0 2 [willing]) ∧ wiresInv (built0 2 [willing]) = true ∧
    devsWf (built0 2 [willing]).devs = true ∧ ∃ t, step (built0 2 [willing]) = .next t := ⟨rfl, rfl, rfl, rfl, _, rfl⟩
theorem witness_OnePacketIsPresented : Event.write (encodePacket 1 1) (some 0) ∈ doneShort.ev := by
  simp [doneShort, wrote, configured]
theorem witness_ConnectionIsReleasedOnEveryPath :
    doneShort.upc = upcHalt ∧ Event.openPort 0 true ∈ doneShort.ev ∧ Event.openPort 0 false ∈ doneUnavailable.ev := by
  refine ⟨rfl, ?_, ?_⟩
  · simp [doneShort, wrote, configured]
  · simp [doneUnavailable]
theorem witness_TransactionsAreInOrderAndOnce :
    doneFailed.ev = [.openPort 0 true] ++ .getState none :: [.diag (.error .configFailed), .close] ∧
    failed (.getState none) = true := ⟨rfl, rfl⟩
theorem witness_SessionEndsInTenSteps :
    (idle0 (List.replicate 7 unwilling)).upc = upcIdle ∧ (idle0 (List.replicate 7 unwilling)).inp.start = true ∧
    (idle0 (List.replicate 7 unwilling)).turns = [] ∧ 7 ≤ (idle0 (List.replicate 7 unwilling)).answers.length :=
  ⟨rfl, rfl, rfl, Nat.le_refl 7⟩
theorem witness_ReferenceSessionSendsThePacket (n : Count) :
    (idle0 [willing, willing, willing, willing, { willing with count := n }, willing, willing]).link = none ∧
    deviceAt (idle0 [willing, willing, willing, willing, { willing with count := n }, willing, willing]) go.portIn = some dev0 ∧
    dev0.heldByOther = false := ⟨rfl, rfl, rfl⟩
theorem witness_HostValidatesBeforeStart :
    argOr 1 .absent = some 1 ∧ argOr 2400 (.value 1) = some 1 ∧ argOr 3 .absent = some 3 ∧ (1 : Int) ≤ 1 ∧ (0 : Int) < 1 ∧
    (0 : Int) < 1 ∧ argOr 2400 (.value 0) = some 0 ∧ (0 : Int) ≤ 0 := by decide
/-- A state of the stage VERIFY, with the count of a full write. -/
def atVerify : State :=
  { held0 7 .sent [] with
    dcb := some (lineSettings 0 d0), bytesWritten := some seven,
    ev := configured 0 d0 0 ++ [.write (encodePacket 1 1) (some seven)] }
theorem witness_sessionInv_verify : sessionInv atVerify :=
  ⟨rfl, rfl, rfl, 1, 1, 0, d0, 0, seven, rfl, rfl, rfl, rfl, rfl, rfl, rfl⟩
theorem witness_HostReadsTheResult :
    doneShort.upc = upcHalt ∧ doneShort.err = .shortWrite ∧ doneClean.err = .none ∧ doneClean.upc = upcHalt ∧
    doneFailed.upc = upcHalt ∧ doneFailed.err = .configFailed ∧ doneUnavailable.err = .portUnavailable ∧
    doneFailed.conn = .closed ∧ (built0 2 []).conn = .unopened ∧ atVerify.conn = .sent ∧
    { doneFailed with diagPort := some (.error .configFailed) }.diagPort = some (.error .configFailed) ∧
    (built0 2 []).upc ≠ upcHalt ∧ atVerify.upc = upcVerify ∧
    doneShort.pktValid = true ∧ doneShort.cam = some 1 ∧ doneShort.preset = some 1 ∧ (idle0 []).pktValid = false :=
  ⟨rfl, rfl, rfl, rfl, rfl, rfl, rfl, rfl, rfl, rfl, rfl, by decide, rfl, rfl, rfl, rfl, rfl⟩

end Sys2Proof.Tests
end

namespace Sys2Proof.Machine

/-! ## The sequencer's move and the two ends of an abort (00_scope.md rules R13, R15) -/

/-- The fetch gives the micro-operation UPC decodes to. -/
theorem fetch_of_decodeUpc {s : State} {i : Instr} (hi : decodeUpc s.upc = .ok i) : fetch s = .ok i := by
  unfold fetch; rw [hi]

theorem sequencerStep_of_decodeUpc {s : State} {i : Instr} (hi : decodeUpc s.upc = .ok i) : sequencerStep s = exec i s := by
  unfold sequencerStep; rw [fetch_of_decodeUpc hi]

/-- With no turn listed the sequencer moves. -/
theorem step_of_no_turn {s : State} (ht : s.turns = []) : step s = sequencerStep s := by
  unfold step; rw [ht]

/-- A listed turn of the sequencer is taken off the list before it moves. -/
theorem step_of_sequencer_turn {s : State} {rest : List Turn} (ht : s.turns = .sequencer :: rest) :
    step s = sequencerStep { s with turns := rest } := by
  unfold step; rw [ht]

/-- EXIT is 1 after exactly the fatal errors. -/
theorem exitOf_of_fatal {e : Err} (he : isFatal e = true) : exitOf e = true := he

/-- Settles O4: both kinds of sequencer move are the sequencer's step, and the list of turns plays no part in the fetch. -/
theorem stepRunsTheDecodedMicroOp : Obligations.StepRunsTheDecodedMicroOp := by
  intro s i hi
  constructor
  · intro ht
    rw [step_of_no_turn ht, sequencerStep_of_decodeUpc hi]
  · intro rest ht
    rw [step_of_sequencer_turn ht]
    exact sequencerStep_of_decodeUpc (s := { s with turns := rest }) hi

/-- Settles O29: the connection held or not selects the end of the abort; a fatal error is what makes EXIT 1 in the direct
halt. -/
theorem raiseClosesOrHalts : Obligations.RaiseClosesOrHalts := by
  intro s e he
  constructor
  · intro held
    rw [raiseError_held held, emit]
  · intro free
    rw [raiseError_free free, haltWith, exitOf_of_fatal he, emit]

end Sys2Proof.Machine

namespace Sys2Proof.Machine

open Sys2Proof.Safety

/-! ## What one micro-operation can do (41_transport.md), as a relation between the states before and after -/

/-- `u` is `s` after one transaction: EV has the entry `e`, the block's hold is `k`, and no register and no other agent's hold of
a port has changed. -/
structure Served (s u : State) (k : Option HostInt) (e : Event) : Prop where
  regs : sameRegisters s u
  ev : u.ev = s.ev ++ [e]
  link : u.link = k
  holds : sameHolds s.devs u.devs

/-- A transaction of the micro-operation UPC selects that the device answered Fail, with the error it raises. -/
inductive Rejection (s : State) : Err → Event → Prop
  | getState (hu : s.upc = 3) : Rejection s .configFailed (.getState none)
  | setState (hu : s.upc = 4) {d : Dcb} {b : HostInt} (hd : s.dcb = some d) (hb : s.baud = some b) :
      Rejection s .configFailed (.setState (lineSettings b d) false)
  | setTimeouts (hu : s.upc = 5) : Rejection s .configFailed (.setTimeouts tmoCfg false)
  | write (hu : s.upc = 6) {k : Packet} (hk : s.pkt = pktFull k) : Rejection s .writeCallFailed (.write k none)

/-- How the micro-operation UPC selects can end. `exec_moves` ties it to `exec`. -/
inductive Moves (s : State) : State → Prop
  /-- the device has not answered, or START or HALT has no step -/
  | stays {t : State} (hr : sameRegisters s t) (he : t.ev = s.ev) (hl : t.link = s.link) (hd : t.devs = s.devs) : Moves s t
  | started (hu : s.upc = 0) (hi : s.inp.start = true) :
      Moves s
        { s with
          cam := some (trunc8 s.inp.camIn), preset := some (trunc8 s.inp.presetIn), baud := some s.inp.baudIn,
          port := some s.inp.portIn, upc := upcEncode }
  | encoded (hu : s.upc = 1) {a pr : Byte} (ha : s.cam = some a) (hpr : s.preset = some pr) :
      Moves s { s with pkt := pktFull (encodePacket a pr), pktValid := true, upc := upcOpen }
  | opened (hu : s.upc = 2) {p : HostInt} {u : State} (hp : s.port = some p)
      (hf : ∃ v, deviceAt s p = some v ∧ v.heldByOther = false) (hs : Served s u (some p) (.openPort p true)) :
      Moves s { u with handle := true, conn := .opened, upc := upcCfgGet }
  | unavailable (hu : s.upc = 2) {p : HostInt} {u : State} (hp : s.port = some p)
      (hs : Served s u s.link (.openPort p false)) : Moves s (haltWith .portUnavailable u)
  | gotState (hu : s.upc = 3) {d : Dcb} {u : State} (hs : Served s u s.link (.getState (some d))) :
      Moves s { u with dcb := some d, upc := upcCfgSet }
  | setState (hu : s.upc = 4) {d : Dcb} {b : HostInt} {u : State} (hd : s.dcb = some d) (hb : s.baud = some b)
      (hs : Served s u s.link (.setState (lineSettings b d) true)) :
      Moves s { u with dcb := some (lineSettings b d), upc := upcCfgTmo }
  | setTimeouts (hu : s.upc = 5) {u : State} (hs : Served s u s.link (.setTimeouts tmoCfg true)) :
      Moves s { u with conn := .configured, upc := upcSend }
  | sent (hu : s.upc = 6) {k : Packet} {n : Count} {u : State} (hk : s.pkt = pktFull k)
      (hs : Served s u s.link (.write k (some n))) :
      Moves s { u with bytesWritten := some n, conn := .sent, upc := upcVerify }
  | aborted {e : Err} {x : Event} {u : State} (hx : Rejection s e x) (hs : Served s u s.link x) : Moves s (raiseError e u)
  | verifiedFull (hu : s.upc = 7) {n : Count} {k : Packet} (hn : s.bytesWritten = some n) (hf : fullCount n = true)
      (hk : s.pkt = pktFull k) : Moves s { emit (.success k) s with upc := upcFinalize }
  | verifiedShort (hu : s.upc = 7) {n : Count} (hn : s.bytesWritten = some n) (hf : fullCount n = false) :
      Moves s { emit (.partialWrite n) s with err := .shortWrite, upc := upcFinalize }
  | finalized (hu : s.upc = 8) {u : State} (hs : Served s u s.link .flush) :
      Moves s { u with conn := .finalized, upc := upcClose }
  | closed (hu : s.upc = 9) {u : State} (hs : Served s u none .close) :
      Moves s { u with handle := false, conn := .closed, exit := some (exitOf s.err), done := true, upc := upcHalt }

/-- The state in which a micro-operation goes on, whatever payload it had put on the request wires. -/
theorem served_went {s : State} {req : DevReq} {op : BitVec 3} {rest : List DevChoice} {ok : Bool} {d : Dcb} {n : Count}
    {l : List (Nat × Device)} {k : Option HostInt} {e : Event} (hl : sameHolds s.devs l) :
    Served s (went { s with req := req } op rest ok d n l k e) k e :=
  ⟨sameRegisters_refl s, rfl, rfl, hl⟩

/-- A raised request, whatever its payload, changes the wires only. -/
theorem moves_raiseReq (s : State) (req : DevReq) (op : BitVec 3) : Moves s (raiseReq op { s with req := req }) :=
  .stays (sameRegisters_refl s) rfl rfl rfl

theorem moves_self (s : State) : Moves s s := .stays (sameRegisters_refl s) rfl rfl rfl

theorem execStart_moves {s t : State} (hu : s.upc = 0) (h : execStart s = .next t) : Moves s t := by
  unfold execStart at h
  split at h
  next hi => cases h; exact .started hu hi
  next => cases h; exact moves_self s

theorem execEncode_moves {s t : State} (hu : s.upc = 1) (h : execEncode s = .next t) : Moves s t := by
  obtain ⟨a, ha, h⟩ := need_next h
  obtain ⟨pr, hpr, h⟩ := need_next h
  rw [encodeWith_eq] at h
  cases h
  exact .encoded hu ha hpr

theorem execOpenPort_moves {s t : State} (hu : s.upc = 2) (h : execOpenPort s = .next t) : Moves s t := by
  obtain ⟨p, hp, -⟩ := need_next h
  rcases execOpenPort_cases hp with ⟨-, hx⟩ | ⟨c, rest, d, n, -, ⟨-, hf, hx⟩ | hx⟩ <;> rw [hx] at h <;> cases h
  · exact moves_raiseReq ..
  · exact .opened hu hp hf (served_went (sameHolds_refl _))
  · exact .unavailable hu hp (served_went (sameHolds_refl _))

theorem execCfgGet_moves {s t : State} (hu : s.upc = 3) (h : execCfgGet s = .next t) : Moves s t := by
  rcases execCfgGet_cases s with ⟨-, hx⟩ | ⟨c, rest, d, n, -, ⟨v, -, -, hx⟩ | hx⟩ <;> rw [hx] at h <;> cases h
  · exact moves_raiseReq ..
  · exact .gotState hu (served_went (sameHolds_refl _))
  · exact .aborted (.getState hu) (served_went (sameHolds_refl _))

theorem execCfgSet_moves {s t : State} (hu : s.upc = 4) (h : execCfgSet s = .next t) : Moves s t := by
  obtain ⟨d, hd, h'⟩ := need_next h
  obtain ⟨b, hb, -⟩ := need_next h'
  rcases execCfgSet_cases hd hb with ⟨-, hx⟩ | ⟨c, rest, ok, r, n, l, -, hl, hx⟩ <;> rw [hx] at h
  · cases h; exact moves_raiseReq ..
  · cases ok <;> cases h
    · exact .aborted (.setState hu hd hb) (served_went hl)
    · exact .setState hu hd hb (served_went hl)

theorem execCfgTmo_moves {s t : State} (hu : s.upc = 5) (h : execCfgTmo s = .next t) : Moves s t := by
  rcases execCfgTmo_cases s with ⟨-, hx⟩ | ⟨c, rest, ok, r, n, l, -, hl, hx⟩ <;> rw [hx] at h
  · cases h; exact moves_raiseReq ..
  · cases ok <;> cases h
    · exact .aborted (.setTimeouts hu) (served_went hl)
    · exact .setTimeouts hu (served_went hl)

theorem execSend_moves {s t : State} (hu : s.upc = 6) (h : execSend s = .next t) : Moves s t := by
  obtain ⟨k, hk, -⟩ := needPacket_next h
  rcases execSend_cases hk with ⟨-, hx⟩ | ⟨c, rest, ok, r, n, l, -, hl, hx⟩ <;> rw [hx] at h
  · cases h; exact moves_raiseReq ..
  · cases ok <;> cases h
    · exact .aborted (.write hu hk) (served_went hl)
    · exact .sent hu hk (served_went hl)

theorem execVerify_moves {s t : State} (hu : s.upc = 7) (h : execVerify s = .next t) : Moves s t := by
  obtain ⟨n, hn, h⟩ := need_next h
  cases hf : fullCount n <;> rw [hf] at h
  · cases h
    exact .verifiedShort hu hn hf
  · rw [if_pos rfl] at h
    obtain ⟨k, hk, h⟩ := needPacket_next h
    cases h
    exact .verifiedFull hu hn hf hk

theorem execFinalize_moves {s t : State} (hu : s.upc = 8) (h : execFinalize s = .next t) : Moves s t := by
  rcases execFinalize_cases s with ⟨-, hx⟩ | ⟨c, rest, r, n, l, -, hl, hx⟩ <;> rw [hx] at h <;> cases h
  · exact moves_raiseReq ..
  · exact .finalized hu (served_went hl)

theorem execClose_moves {s t : State} (hu : s.upc = 9) (h : execClose s = .next t) : Moves s t := by
  rcases execClose_cases s with ⟨-, hx⟩ | ⟨c, rest, r, n, l, -, hl, hx⟩ <;> rw [hx] at h <;> cases h
  · exact moves_raiseReq ..
  · exact .closed hu (served_went hl)

/-- What the sequencer's move can do: the fetched micro-operation, run to a next state, ends in one of the ways of `Moves`. -/
theorem exec_moves {s t : State} {i : Instr} (hi : fetch s = .ok i) (h : exec i s = .next t) : Moves s t := by
  rcases fetch_cases hi with ⟨hu, rfl⟩ | ⟨hu, rfl⟩ | ⟨hu, rfl⟩ | ⟨hu, rfl⟩ | ⟨hu, rfl⟩ | ⟨hu, rfl⟩ | ⟨hu, rfl⟩ | ⟨hu, rfl⟩ |
    ⟨hu, rfl⟩ | ⟨hu, rfl⟩ | ⟨-, rfl⟩
  · exact execStart_moves hu h
  · exact execEncode_moves hu h
  · exact execOpenPort_moves hu h
  · exact execCfgGet_moves hu h
  · exact execCfgSet_moves hu h
  · exact execCfgTmo_moves hu h
  · exact execSend_moves hu h
  · exact execVerify_moves hu h
  · exact execFinalize_moves hu h
  · exact execClose_moves hu h
  · cases h
    exact moves_self s

/-! ## The stage table (10_state.md rule R42) -/

theorem stageTable_congr {s t : State} (hr : sameRegisters s t) : stageTable t = stageTable s := by
  simp only [sameRegisters] at hr
  simp only [stageTable, hr]

/-- A transaction leaves the registers of the stage table. -/
theorem Served.stage {s u : State} {k : Option HostInt} {e : Event} (hs : Served s u k e) :
    u.conn = s.conn ∧ u.handle = s.handle ∧ u.err = s.err := by
  obtain ⟨-, -, -, -, -, -, -, -, hc, hh, -, he, -⟩ := hs.regs
  exact ⟨hc, hh, he⟩

/-- A transaction that can be rejected with an abort finds the connection held, at the stage of the error it raises. -/
theorem stage_of_rejection {s : State} {e : Err} {x : Event} (hi : stageTable s = true) (hx : Rejection s e x) :
    s.handle = true ∧ (s.conn = .opened ∧ e = .configFailed ∨ s.conn = .configured ∧ e = .writeCallFailed) := by
  cases hx <;> simp_all [stageTable]

/-- From a state of the table an abort goes to CLOSE: the connection is held. -/
theorem raiseError_of_rejection {s u : State} {e : Err} {x : Event} {k : Option HostInt} (hi : stageTable s = true)
    (hx : Rejection s e x) (hs : Served s u k x) : raiseError e u = { emit (.error e) u with err := e, upc := upcClose } :=
  raiseError_held (hs.stage.2.1.trans (stage_of_rejection hi hx).1)

/-- Every end of a micro-operation keeps the table. -/
theorem moves_stageTable {s t : State} (hi : stageTable s = true) (h : Moves s t) : stageTable t = true := by
  cases h with
  | stays hr => rw [stageTable_congr hr, hi]
  | started hu => simpa [stageTable, hu, upcEncode] using hi
  | encoded hu => simpa [stageTable, hu, upcOpen] using hi
  | opened hu _ _ hs => simp_all [stageTable, hs.stage, upcCfgGet]
  | unavailable hu _ hs => simp_all [stageTable, hs.stage, upcHalt]
  | gotState hu hs => simpa [stageTable, hu, hs.stage, upcCfgSet] using hi
  | setState hu _ _ hs => simpa [stageTable, hu, hs.stage, upcCfgTmo] using hi
  | setTimeouts hu hs => simp_all [stageTable, hs.stage, upcSend]
  | sent hu _ hs => simp_all [stageTable, hs.stage, upcVerify]
  | aborted hx hs =>
    obtain ⟨hh, hc⟩ := stage_of_rejection hi hx
    rw [raiseError_of_rejection hi hx hs]
    rcases hc with ⟨hc, rfl⟩ | ⟨hc, rfl⟩ <;> simp [stageTable, hs.stage, hh, hc, upcClose]
  | verifiedFull hu => simp_all [stageTable, upcFinalize]
  | verifiedShort hu => simp_all [stageTable, upcFinalize]
  | finalized hu hs => simp_all [stageTable, hs.stage, upcClose]
  | closed hu hs =>
    simp only [stageTable, hu] at hi
    simp [stageTable, hs.stage, upcHalt]
    intro he
    simp [he] at hi

theorem resetBlock_stageTable (s : State) : stageTable (resetBlock s) = true := rfl

/-- Settles O46: a move of another agent leaves the registers, a reset puts the row of IDLE, and the sequencer's move takes one
row of the table to the next. -/
theorem everyStepKeepsTheStageTable : Obligations.EveryStepKeepsTheStageTable := by
  intro s t hi h
  rcases step_cases h with ⟨r, i, hf, hx⟩ | ⟨r, rfl, -⟩ | ⟨hr, -⟩
  · exact moves_stageTable (s := { s with turns := r }) hi (exec_moves hf hx)
  · exact resetBlock_stageTable _
  · rw [stageTable_congr hr, hi]

/-! ## The hold of a port (10_state.md rule R27, 20_memory.md rule R61) -/

theorem holdInv_none {s : State} (hl : s.link = none) (hh : s.handle = false) : holdInv s := by
  unfold holdInv; rw [hl]; exact hh

theorem holdInv_some {s : State} {p : HostInt} (hl : s.link = some p) (hh : s.handle = true) (hp : s.port = some p)
    (hf : ∃ d, deviceAt s p = some d ∧ d.heldByOther = false) : holdInv s := by
  unfold holdInv; rw [hl]; exact ⟨hh, hp, hf⟩

/-- What the hold invariant says, with and without a port held. -/
theorem holdInv_cases {s : State} (hi : holdInv s) :
    (s.link = none ∧ s.handle = false) ∨
      ∃ p, s.link = some p ∧ s.handle = true ∧ s.port = some p ∧ ∃ d, deviceAt s p = some d ∧ d.heldByOther = false := by
  unfold holdInv at hi
  split at hi
  next hl => exact .inl ⟨hl, hi⟩
  next p hl => exact .inr ⟨p, hl, hi⟩

/-- Without the connection no port is held. -/
theorem link_none_of_handle_false {s : State} (hi : holdInv s) (hh : s.handle = false) : s.link = none := by
  rcases holdInv_cases hi with ⟨hl, -⟩ | ⟨p, -, ht, -⟩
  · exact hl
  · simp [hh] at ht

/-- In IDLE and HALT the connection is not held. -/
theorem handle_false_of_idle_or_halt {s : State} (hst : stageTable s = true) (hu : s.upc = upcIdle ∨ s.upc = upcHalt) :
    s.handle = false := by
  rcases hu with hu | hu <;> simp_all [stageTable, upcIdle, upcHalt]

/-- The hold is kept with HANDLE, PORT and the held port, as long as no other agent takes that port. -/
theorem holdInv_congr {s t : State} (hh : t.handle = s.handle) (hp : t.port = s.port) (hl : t.link = s.link)
    (hd : ∀ p, s.link = some p → (∃ d, deviceAt s p = some d ∧ d.heldByOther = false) →
      ∃ d, deviceAt t p = some d ∧ d.heldByOther = false) (hi : holdInv s) : holdInv t := by
  rcases holdInv_cases hi with ⟨hn, hf⟩ | ⟨p, hs, ht, hport, hfree⟩
  · exact holdInv_none (hl.trans hn) (hh.trans hf)
  · exact holdInv_some (hl.trans hs) (hh.trans ht) (hp.trans hport) (hd p hs hfree)

/-- A device that no other agent holds is still so where nobody's hold has changed. -/
theorem free_of_sameHolds {s t : State} (hd : sameHolds s.devs t.devs) {p : HostInt}
    (hf : ∃ d, deviceAt s p = some d ∧ d.heldByOther = false) : ∃ d, deviceAt t p = some d ∧ d.heldByOther = false := by
  rw [← Option.map_eq_some_iff] at hf ⊢
  rw [← hf]
  exact devLookup_sameHolds hd p.toNat

/-- A transaction leaves HANDLE and PORT. -/
theorem Served.holder {s u : State} {k : Option HostInt} {e : Event} (hs : Served s u k e) :
    u.handle = s.handle ∧ u.port = s.port := by
  obtain ⟨-, -, -, -, hp, -, -, -, -, hh, -⟩ := hs.regs
  exact ⟨hh, hp⟩

/-- A transaction that leaves the held port keeps the hold. -/
theorem Served.holdInv {s u : State} {e : Event} (hs : Served s u s.link e) (hi : holdInv s) : holdInv u :=
  holdInv_congr hs.holder.1 hs.holder.2 hs.link (fun _ _ => free_of_sameHolds hs.holds) hi

theorem raiseError_holdInv {e : Err} {s : State} (hi : holdInv s) : holdInv (raiseError e s) := by
  unfold raiseError
  split <;> exact hi

/-- Every end of a micro-operation keeps the hold. -/
theorem moves_holdInv {s t : State} (hst : stageTable s = true) (hi : holdInv s) (h : Moves s t) : holdInv t := by
  cases h with
  | stays hr _ hl hd =>
    obtain ⟨-, -, -, -, hp, -, -, -, -, hh, -⟩ := hr
    exact holdInv_congr hh hp hl (fun _ _ => free_of_sameHolds (by rw [hd]; rfl)) hi
  | started hu =>
    have hh := handle_false_of_idle_or_halt hst (.inl hu)
    have hl := link_none_of_handle_false hi hh
    exact holdInv_none hl hh
  | opened hu hp hf hs =>
    exact holdInv_some hs.link rfl (hs.holder.2.trans hp) (free_of_sameHolds hs.holds hf)
  | closed _ hs => exact holdInv_none hs.link rfl
  | aborted _ hs => exact raiseError_holdInv (hs.holdInv hi)
  | unavailable _ _ hs => exact hs.holdInv hi
  | gotState _ hs => exact hs.holdInv hi
  | setState _ _ _ hs => exact hs.holdInv hi
  | setTimeouts _ hs => exact hs.holdInv hi
  | sent _ _ hs => exact hs.holdInv hi
  | finalized _ hs => exact hs.holdInv hi
  | encoded => exact hi
  | verifiedFull => exact hi
  | verifiedShort => exact hi

/-- The device of a port after another agent's hold of one port has become `b`. -/
theorem free_of_hold_change {s t : State} {p q : HostInt} {b : Bool}
    (hd : t.devs = devModify p.toNat (fun d => { d with heldByOther := b }) s.devs) (hb : q = p → b = false)
    (hf : ∃ d, deviceAt s q = some d ∧ d.heldByOther = false) : ∃ d, deviceAt t q = some d ∧ d.heldByOther = false := by
  obtain ⟨d, hd', hf⟩ := hf
  rw [deviceAt_congr (t := t) (s := modifyAt p _ s) hd, deviceAt_modifyAt, hd']
  split
  next hq => exact ⟨_, rfl, hb hq⟩
  next => exact ⟨d, rfl, hf⟩

/-- Settles O50: OPEN takes the hold of a free port and CLOSE gives it up with HANDLE; nothing else touches either, and another
agent cannot take the port that is held. -/
theorem everyStepKeepsTheHold : Obligations.EveryStepKeepsTheHold := by
  intro s t hst hi h
  rcases step_cases h with ⟨r, i, hf, hx⟩ | ⟨r, rfl, hu⟩ | ⟨hr, -, hl, -, -, hd⟩
  · exact moves_holdInv (s := { s with turns := r }) hst hi (exec_moves hf hx)
  · have hl := link_none_of_handle_false hi (handle_false_of_idle_or_halt hst hu)
    exact holdInv_none hl rfl
  · obtain ⟨-, -, -, -, hp, -, -, -, -, hh, -⟩ := hr
    refine holdInv_congr hh hp hl (fun q hq => ?_) hi
    rcases hd with hd | ⟨p, hne, hd⟩ | ⟨p, hd⟩
    · exact free_of_sameHolds hd
    · exact free_of_hold_change hd fun hqp => absurd (hqp ▸ hq) hne
    · exact free_of_hold_change hd fun _ => rfl

/-! ## The session invariant (10_state.md rules R28 to R31, R42, R44, 20_memory.md rule R62) -/

/-- A transaction leaves the data registers. -/
theorem Served.data {s u : State} {k : Option HostInt} {e : Event} (hs : Served s u k e) :
    u.cam = s.cam ∧ u.preset = s.preset ∧ u.pkt = s.pkt ∧ u.baud = s.baud ∧ u.port = s.port ∧ u.dcb = s.dcb ∧
      u.bytesWritten = s.bytesWritten ∧ u.pktValid = s.pktValid := by
  obtain ⟨ha, hpr, hk, hb, hp, hd, hn, -, -, -, hv, -⟩ := hs.regs
  exact ⟨ha, hpr, hk, hb, hp, hd, hn, hv⟩

/-- A transaction leaves DONE and EXIT. -/
theorem Served.status {s u : State} {k : Option HostInt} {e : Event} (hs : Served s u k e) :
    u.done = s.done ∧ u.exit = s.exit := by
  obtain ⟨-, -, -, -, -, -, -, -, -, -, -, -, hd, hx⟩ := hs.regs
  exact ⟨hd, hx⟩

theorem sessionInv_congr {s t : State} (hr : sameRegisters s t) (he : t.ev = s.ev) (hi : sessionInv s) : sessionInv t := by
  simp only [sameRegisters] at hr
  simpa only [sessionInv, stageTable, statusTable, ready, nothingLoaded, nothingBuilt, loaded, built, history, hr, he] using hi

/-- The stage of a rejected transaction lies between OPEN and VERIFY. -/
theorem upc_of_rejection {s : State} {e : Err} {x : Event} (hx : Rejection s e x) :
    s.upc = 3 ∨ s.upc = 4 ∨ s.upc = 5 ∨ s.upc = 6 := by
  cases hx <;> simp [*]

/-- DONE and EXIT are written on the way into HALT only, with the status of the final error. -/
theorem moves_statusTable {s t : State} (hst : stageTable s = true) (hi : statusTable s = true) (h : Moves s t) :
    statusTable t = true := by
  cases h with
  | stays hr =>
    simp only [sameRegisters] at hr
    simpa only [statusTable, hr] using hi
  | started hu => simpa [statusTable, hu, upcEncode, upcHalt] using hi
  | encoded hu => simpa [statusTable, hu, upcOpen, upcHalt] using hi
  | opened hu _ _ hs => simpa [statusTable, hu, hs.status, upcCfgGet, upcHalt] using hi
  | unavailable => simp [statusTable]
  | gotState hu hs => simpa [statusTable, hu, hs.status, upcCfgSet, upcHalt] using hi
  | setState hu _ _ hs => simpa [statusTable, hu, hs.status, upcCfgTmo, upcHalt] using hi
  | setTimeouts hu hs => simpa [statusTable, hu, hs.status, upcSend, upcHalt] using hi
  | sent hu _ hs => simpa [statusTable, hu, hs.status, upcVerify, upcHalt] using hi
  | aborted hx hs =>
    rw [raiseError_of_rejection hst hx hs]
    rcases upc_of_rejection hx with hu | hu | hu | hu <;> simpa [statusTable, hu, hs.status, upcClose, upcHalt] using hi
  | verifiedFull hu => simpa [statusTable, hu, upcFinalize, upcHalt] using hi
  | verifiedShort hu => simpa [statusTable, hu, upcFinalize, upcHalt] using hi
  | finalized hu hs => simpa [statusTable, hu, hs.status, upcClose, upcHalt] using hi
  | closed _ hs => simp [statusTable, hs.stage]

/-- Each register is ready when the micro-operation that needs it is next. -/
theorem moves_ready {s t : State} (hst : stageTable s = true) (hi : ready s = true) (h : Moves s t) : ready t = true := by
  cases h with
  | stays hr =>
    simp only [sameRegisters] at hr
    simpa only [ready, nothingLoaded, nothingBuilt, loaded, built, hr] using hi
  | started hu => simp_all [ready, upcEncode, loaded, nothingBuilt]
  | encoded hu => simp_all [ready, upcOpen, loaded, built]
  | opened hu _ _ hs => simpa [ready, loaded, built, hu, hs.data, upcCfgGet] using hi
  | unavailable hu _ hs => simp_all [ready, loaded, built, hs.data, upcHalt]
  | gotState hu hs => simp_all [ready, loaded, built, hs.data, upcCfgSet]
  | setState hu _ _ hs => simp_all [ready, loaded, built, hs.data, upcCfgTmo]
  | setTimeouts hu hs => simpa [ready, loaded, built, hu, hs.data, upcSend] using hi
  | sent hu _ hs => simp_all [ready, loaded, built, hs.data, upcVerify]
  | aborted hx hs =>
    rw [raiseError_of_rejection hst hx hs]
    rcases upc_of_rejection hx with hu | hu | hu | hu <;> simp_all [ready, loaded, built, hs.data, upcClose]
  | verifiedFull hu => simpa [ready, loaded, built, hu, upcFinalize] using hi
  | verifiedShort hu => simpa [ready, loaded, built, hu, upcFinalize] using hi
  | finalized hu hs => simp_all [ready, loaded, built, hs.data, upcClose]
  | closed hu hs => simpa [ready, loaded, built, hu, hs.data, upcHalt] using hi

/-- What START has loaded and ENCODE built, with the registers' values named. -/
theorem loaded_iff (s : State) :
    loaded s = true ↔ ∃ a pr p b, s.cam = some a ∧ s.preset = some pr ∧ s.port = some p ∧ s.baud = some b := by
  simp only [loaded, Bool.and_eq_true, Option.isSome_iff_exists]
  constructor
  · rintro ⟨⟨⟨⟨a, ha⟩, pr, hpr⟩, b, hb⟩, p, hp⟩
    exact ⟨a, pr, p, b, ha, hpr, hp, hb⟩
  · rintro ⟨a, pr, p, b, ha, hpr, hp, hb⟩
    exact ⟨⟨⟨⟨a, ha⟩, pr, hpr⟩, b, hb⟩, p, hp⟩

/-- A built buffer holds a whole packet. -/
theorem pktFull_of_built {s : State} (hb : built s = true) : ∃ k, s.pkt = pktFull k := by
  unfold built at hb
  split at hb
  · simp only [Bool.and_eq_true, beq_iff_eq] at hb
    exact ⟨_, hb.2⟩
  · cases hb

/-- A built packet is the packet of CAM and PRESET. -/
theorem packet_of_built {s : State} {a pr : Byte} {k : Packet} (hb : built s = true) (ha : s.cam = some a)
    (hpr : s.preset = some pr) (hk : s.pkt = pktFull k) : k = encodePacket a pr := by
  simp only [built, ha, hpr, hk, Bool.and_eq_true, beq_iff_eq] at hb
  obtain ⟨-, hb⟩ := hb
  cases k
  simp_all [pktFull]

/-- From OPEN on the four inputs are loaded and the packet is built. -/
theorem loaded_built_of_ready {s : State} (hi : ready s = true) (h0 : s.upc ≠ 0) (h1 : s.upc ≠ 1) :
    loaded s = true ∧ built s = true := by
  unfold ready at hi
  split at hi
  next h => exact absurd (BitVec.eq_of_toNat_eq h) h0
  next h => exact absurd (BitVec.eq_of_toNat_eq h) h1
  all_goals
    simp only [Bool.and_eq_true] at hi
    simp [hi]

/-- A rejected transaction completes the history of an abort. -/
theorem attempt_of_rejection {s : State} {e : Err} {x : Event} {a pr : Byte} {p b : HostInt} (hr : ready s = true)
    (hi : history s) (hx : Rejection s e x) (ha : s.cam = some a) (hpr : s.preset = some pr) (hp : s.port = some p)
    (hb : s.baud = some b) : Attempt a pr p b s.dcb s.bytesWritten e (s.ev ++ [x, .diag (.error e)]) := by
  cases hx with
  | getState hu =>
    simp only [ready, hu, BitVec.reduceToNat, Bool.and_eq_true, Option.isNone_iff_eq_none] at hr
    simp only [history, hu, BitVec.reduceToNat, hp, Option.some.injEq] at hi
    obtain ⟨⟨-, hd⟩, hn⟩ := hr
    obtain ⟨_, rfl, hev⟩ := hi
    rw [hd, hn, hev]
    exact .getFailed
  | setState hu hd hb' =>
    simp only [ready, hu, BitVec.reduceToNat, Bool.and_eq_true, Option.isNone_iff_eq_none] at hr
    simp only [history, hu, BitVec.reduceToNat, hp, hd, Option.some.injEq] at hi
    simp only [hb, Option.some.injEq] at hb'
    obtain ⟨-, hn⟩ := hr
    obtain ⟨_, _, rfl, rfl, hev⟩ := hi
    rw [hd, hn, hev, ← hb']
    exact .setFailed _
  | setTimeouts hu =>
    simp only [ready, hu, BitVec.reduceToNat, Bool.and_eq_true, Option.isNone_iff_eq_none] at hr
    simp only [history, hu, BitVec.reduceToNat, hp, hb, Option.some.injEq] at hi
    obtain ⟨-, hn⟩ := hr
    obtain ⟨_, d, _, rfl, rfl, hd, hev⟩ := hi
    rw [hd, hn, hev]
    exact .timeoutsFailed d
  | write hu hk =>
    simp only [ready, hu, BitVec.reduceToNat, Bool.and_eq_true, Option.isNone_iff_eq_none] at hr
    simp only [history, hu, BitVec.reduceToNat, hp, hb, Option.some.injEq] at hi
    obtain ⟨⟨⟨-, hbuilt⟩, -⟩, hn⟩ := hr
    obtain ⟨_, d, _, rfl, rfl, hd, hev⟩ := hi
    rw [hd, hn, hev, packet_of_built hbuilt ha hpr hk]
    exact .writeFailed d

/-- The history grows by the entries of the micro-operation that ends. -/
theorem moves_history {s t : State} (hst : stageTable s = true) (hr : ready s = true) (hi : history s) (h : Moves s t) :
    history t := by
  cases h with
  | stays hsame he =>
    simp only [sameRegisters] at hsame
    simpa only [history, hsame, he] using hi
  | started hu => simpa [history, hu, upcEncode] using hi
  | encoded hu => simpa [history, hu, upcOpen] using hi
  | opened hu hp _ hs =>
    simp only [history, hu, BitVec.reduceToNat] at hi
    simp [history, upcCfgGet, hs.data, hs.ev, hp, hi]
  | unavailable hu hp hs =>
    simp only [ready, hu, BitVec.reduceToNat, Bool.and_eq_true, Option.isNone_iff_eq_none] at hr
    simp only [history, hu, BitVec.reduceToNat] at hi
    obtain ⟨⟨⟨hl, -⟩, hd⟩, hn⟩ := hr
    obtain ⟨a, pr, p', b, ha, hpr, -, hb⟩ := (loaded_iff s).1 hl
    simp [history, upcHalt, hs.data, hs.ev, ha, hpr, hp, hb, hd, hn, hi]
  | gotState hu hs =>
    simp only [history, hu, BitVec.reduceToNat] at hi
    obtain ⟨p, hp, hev⟩ := hi
    simp [history, upcCfgSet, hs.data, hs.ev, hp, hev]
  | @setState hu d b _ hd hb hs =>
    simp only [history, hu, BitVec.reduceToNat, hd, Option.some.injEq] at hi
    obtain ⟨p, _, hp, rfl, hev⟩ := hi
    exact ⟨p, d, b, by simp [hs.data, hs.ev, hp, hb, hev]⟩
  | setTimeouts hu hs =>
    simp only [history, hu, BitVec.reduceToNat] at hi
    obtain ⟨p, d, b, hp, hb, hd, hev⟩ := hi
    exact ⟨p, d, b, by simp [hs.data, hs.ev, hp, hb, hd, hev, configured]⟩
  | @sent hu _ n _ hk hs =>
    simp only [ready, hu, BitVec.reduceToNat, Bool.and_eq_true] at hr
    simp only [history, hu, BitVec.reduceToNat] at hi
    obtain ⟨⟨⟨hl, hbuilt⟩, -⟩, -⟩ := hr
    obtain ⟨a, pr, _, _, ha, hpr, -, -⟩ := (loaded_iff s).1 hl
    obtain ⟨p, d, b, hp, hb, hd, hev⟩ := hi
    have hk := packet_of_built hbuilt ha hpr hk
    exact ⟨a, pr, p, d, b, n, by simp [hs.data, hs.ev, ha, hpr, hp, hb, hd, hev, hk]⟩
  | aborted hx hs =>
    have hu : s.upc ≠ 0 ∧ s.upc ≠ 1 := by rcases upc_of_rejection hx with hu | hu | hu | hu <;> simp [hu]
    obtain ⟨hl, -⟩ := loaded_built_of_ready hr hu.1 hu.2
    obtain ⟨a, pr, p, b, ha, hpr, hp, hb⟩ := (loaded_iff s).1 hl
    have hat := attempt_of_rejection hr hi hx ha hpr hp hb
    rw [raiseError_of_rejection hst hx hs]
    exact ⟨a, pr, p, b, by simpa [hs.data, hs.ev, ha, hpr, hp, hb] using hat⟩
  | verifiedFull hu hn hf hk =>
    simp only [ready, hu, BitVec.reduceToNat, Bool.and_eq_true] at hr
    simp only [history, hu, BitVec.reduceToNat, hn, Option.some.injEq] at hi
    obtain ⟨⟨⟨-, hbuilt⟩, -⟩, -⟩ := hr
    obtain ⟨a, pr, p, d, b, _, ha, hpr, hp, hb, hd, rfl, hev⟩ := hi
    have he : s.err = .none := by simp_all [stageTable]
    have hk := packet_of_built hbuilt ha hpr hk
    exact ⟨a, pr, p, d, b, _, ha, hpr, hp, hb, hd, hn, by simp [verdictErr, hf, he], by simp [verdict, hf, hev, hk]⟩
  | verifiedShort hu hn hf =>
    simp only [history, hu, BitVec.reduceToNat, hn, Option.some.injEq] at hi
    obtain ⟨a, pr, p, d, b, _, ha, hpr, hp, hb, hd, rfl, hev⟩ := hi
    exact ⟨a, pr, p, d, b, _, ha, hpr, hp, hb, hd, hn, by simp [verdictErr, hf], by simp [verdict, hf, hev]⟩
  | finalized hu hs =>
    simp only [history, hu, BitVec.reduceToNat] at hi
    obtain ⟨a, pr, p, d, b, n, ha, hpr, hp, hb, hd, hn, he, hev⟩ := hi
    have hat : Attempt a pr p b .. := .written d n
    exact ⟨a, pr, p, b, by simpa [hs.data, hs.stage, hs.ev, ha, hpr, hp, hb, hd, hn, he, hev] using hat⟩
  | closed hu hs =>
    simp only [history, hu, BitVec.reduceToNat] at hi
    obtain ⟨a, pr, p, b, ha, hpr, hp, hb, hat⟩ := hi
    exact ⟨a, pr, p, b, by simpa [hs.data, hs.stage, hs.ev, ha, hpr, hp, hb] using .inr hat⟩

theorem moves_sessionInv {s t : State} (hi : sessionInv s) (h : Moves s t) : sessionInv t := by
  obtain ⟨hst, hx, hr, hh⟩ := hi
  exact ⟨moves_stageTable hst h, moves_statusTable hst hx h, moves_ready hst hr h, moves_history hst hr hh h⟩

/-- Reset starts a new session, whatever stands on the host's wires and in the environment. -/
theorem resetBlock_sessionInv (s : State) : sessionInv (resetBlock s) := ⟨rfl, rfl, rfl, rfl⟩

/-- Settles O48: the sequencer's move takes each part of the invariant to the next stage, a reset starts a new session, and a move
of another agent leaves registers and history. -/
theorem everyStepKeepsTheSessionInvariant : Obligations.EveryStepKeepsTheSessionInvariant := by
  intro s t hi h
  rcases step_cases h with ⟨r, i, hf, hx⟩ | ⟨r, rfl, -⟩ | ⟨hr, he, -⟩
  · exact moves_sessionInv (s := { s with turns := r }) hi (exec_moves hf hx)
  · exact resetBlock_sessionInv _
  · exact sessionInv_congr hr he hi

/-! ## A session never faults (10_state.md rule R44) -/

/-- A listed turn that is not the sequencer's is a move of the environment. -/
theorem step_of_environment_turn {s : State} {t : Turn} {rest : List Turn} (ht : s.turns = t :: rest) (hne : t ≠ .sequencer) :
    step s = environmentMove t { s with turns := rest } := by
  unfold step
  rw [ht]
  cases t with
  | sequencer => exact absurd rfl hne
  | _ => rfl

/-- A move of the environment stops at a reset during a session only. -/
theorem environmentMove_next_or_refused (t : Turn) (s : State) :
    (∃ u, environmentMove t s = .next u) ∨ environmentMove t s = .refused .resetDuringSession := by
  cases t with
  | reset =>
    simp only [environmentMove]
    split
    · exact .inl ⟨_, rfl⟩
    · exact .inr rfl
  | _ => exact .inl ⟨_, rfl⟩

/-- Every state of the stage table selects a micro-operation. -/
theorem fetch_of_stageTable {s : State} (hi : stageTable s = true) : ∃ i, fetch s = .ok i := by
  have hd : ∃ i, decodeUpc s.upc = .ok i := by
    unfold stageTable at hi
    unfold decodeUpc
    split at hi <;> simp_all
  obtain ⟨i, hd⟩ := hd
  exact ⟨i, fetch_of_decodeUpc hd⟩

/-! Each micro-operation goes on when the registers it needs hold a value. -/

theorem execStart_next (s : State) : ∃ t, execStart s = .next t := by
  unfold execStart
  split <;> exact ⟨_, rfl⟩

theorem execEncode_next {s : State} {a pr : Byte} (ha : s.cam = some a) (hpr : s.preset = some pr) :
    ∃ t, execEncode s = .next t := by
  unfold execEncode
  rw [need_of_some ha, need_of_some hpr, encodeWith_eq]
  exact ⟨_, rfl⟩

theorem execOpenPort_next {s : State} {p : HostInt} (hp : s.port = some p) : ∃ t, execOpenPort s = .next t := by
  rcases execOpenPort_cases hp with ⟨-, h⟩ | ⟨c, rest, d, n, -, ⟨-, -, h⟩ | h⟩ <;> exact ⟨_, h⟩

theorem execCfgGet_next (s : State) : ∃ t, execCfgGet s = .next t := by
  rcases execCfgGet_cases s with ⟨-, h⟩ | ⟨c, rest, d, n, -, ⟨v, -, -, h⟩ | h⟩ <;> exact ⟨_, h⟩

theorem execCfgSet_next {s : State} {d : Dcb} {b : HostInt} (hd : s.dcb = some d) (hb : s.baud = some b) :
    ∃ t, execCfgSet s = .next t := by
  rcases execCfgSet_cases hd hb with ⟨-, h⟩ | ⟨c, rest, ok, r, n, l, -, -, h⟩
  · exact ⟨_, h⟩
  · cases ok <;> exact ⟨_, h⟩

theorem execCfgTmo_next (s : State) : ∃ t, execCfgTmo s = .next t := by
  rcases execCfgTmo_cases s with ⟨-, h⟩ | ⟨c, rest, ok, r, n, l, -, -, h⟩
  · exact ⟨_, h⟩
  · cases ok <;> exact ⟨_, h⟩

theorem execSend_next {s : State} {k : Packet} (hk : s.pkt = pktFull k) : ∃ t, execSend s = .next t := by
  rcases execSend_cases hk with ⟨-, h⟩ | ⟨c, rest, ok, r, n, l, -, -, h⟩
  · exact ⟨_, h⟩
  · cases ok <;> exact ⟨_, h⟩

theorem execVerify_next {s : State} {n : Count} {k : Packet} (hn : s.bytesWritten = some n) (hk : s.pkt = pktFull k) :
    ∃ t, execVerify s = .next t := by
  unfold execVerify
  rw [need_of_some hn, needPacket_of_full hk]
  split <;> exact ⟨_, rfl⟩

theorem execFinalize_next (s : State) : ∃ t, execFinalize s = .next t := by
  rcases execFinalize_cases s with ⟨-, h⟩ | ⟨c, rest, r, n, l, -, -, h⟩ <;> exact ⟨_, h⟩

theorem execClose_next (s : State) : ∃ t, execClose s = .next t := by
  rcases execClose_cases s with ⟨-, h⟩ | ⟨c, rest, r, n, l, -, -, h⟩ <;> exact ⟨_, h⟩

/-- At each stage the registers that the micro-operation needs are ready. -/
theorem exec_next_of_ready {s : State} {i : Instr} (hr : ready s = true) (hf : fetch s = .ok i) : ∃ t, exec i s = .next t := by
  rcases fetch_cases hf with ⟨hu, rfl⟩ | ⟨hu, rfl⟩ | ⟨hu, rfl⟩ | ⟨hu, rfl⟩ | ⟨hu, rfl⟩ | ⟨hu, rfl⟩ | ⟨hu, rfl⟩ | ⟨hu, rfl⟩ |
    ⟨hu, rfl⟩ | ⟨hu, rfl⟩ | ⟨hu, rfl⟩ <;>
    simp only [ready, hu, BitVec.reduceToNat, Bool.and_eq_true, Option.isSome_iff_exists] at hr
  · exact execStart_next s
  · obtain ⟨⟨⟨hl, -⟩, -⟩, -⟩ := hr
    obtain ⟨a, pr, -, -, ha, hpr, -, -⟩ := (loaded_iff s).1 hl
    exact execEncode_next ha hpr
  · obtain ⟨⟨⟨hl, -⟩, -⟩, -⟩ := hr
    obtain ⟨-, -, p, -, -, -, hp, -⟩ := (loaded_iff s).1 hl
    exact execOpenPort_next hp
  · exact execCfgGet_next s
  · obtain ⟨⟨⟨hl, -⟩, d, hd⟩, -⟩ := hr
    obtain ⟨-, -, -, b, -, -, -, hb⟩ := (loaded_iff s).1 hl
    exact execCfgSet_next hd hb
  · exact execCfgTmo_next s
  · obtain ⟨⟨⟨-, hb⟩, -⟩, -⟩ := hr
    obtain ⟨k, hk⟩ := pktFull_of_built hb
    exact execSend_next hk
  · obtain ⟨⟨⟨-, hb⟩, -⟩, n, hn⟩ := hr
    obtain ⟨k, hk⟩ := pktFull_of_built hb
    exact execVerify_next hn hk
  · exact execFinalize_next s
  · exact execClose_next s
  · exact ⟨s, rfl⟩

theorem sequencerStep_next_of_sessionInv {s : State} (hi : sessionInv s) : ∃ t, sequencerStep s = .next t := by
  obtain ⟨hst, -, hr, -⟩ := hi
  obtain ⟨i, hf⟩ := fetch_of_stageTable hst
  obtain ⟨t, ht⟩ := exec_next_of_ready hr hf
  exact ⟨t, by rw [sequencerStep, hf]; exact ht⟩

/-- What a step of a session can be. -/
theorem step_next_or_refused_of_sessionInv {s : State} (hi : sessionInv s) :
    (∃ t, step s = .next t) ∨ step s = .refused .resetDuringSession := by
  cases ht : s.turns with
  | nil =>
    rw [step_of_no_turn ht]
    exact .inl (sequencerStep_next_of_sessionInv hi)
  | cons t rest =>
    by_cases hseq : t = .sequencer
    · subst hseq
      rw [step_of_sequencer_turn ht]
      exact .inl (sequencerStep_next_of_sessionInv (s := { s with turns := rest }) hi)
    · rw [step_of_environment_turn ht hseq]
      exact environmentMove_next_or_refused t _

/-- Settles O49: the sequencer's move finds its registers ready, and no other agent's move stops but a reset. -/
theorem noStepOfASessionFaults : Obligations.NoStepOfASessionFaults := by
  intro s hi
  rcases step_next_or_refused_of_sessionInv hi with ⟨t, h⟩ | h <;> rw [h]
  · exact ⟨nofun, nofun⟩
  · refine ⟨nofun, fun r hr => ?_⟩
    cases hr
    rfl

/-! ## Reset (10_state.md rule R43, 70_reset_and_hazards.md rule R200) -/

/-- Settles O1: the table of R43 is what `State.reset` writes out, byte by byte for the packet buffer. -/
theorem resetLeavesTheTable : Obligations.ResetLeavesTheTable := by
  refine ⟨rfl, rfl, rfl, rfl, rfl, rfl, rfl, rfl, rfl, rfl, rfl, fun i => ?_, rfl, rfl, rfl⟩
  fin_cases i <;> rfl

/-- The reset turn in IDLE and HALT. -/
theorem step_of_reset_turn {s : State} {rest : List Turn} (ht : s.turns = .reset :: rest)
    (hu : s.upc = upcIdle ∨ s.upc = upcHalt) : step s = .next (resetBlock { s with turns := rest }) := by
  have hok : resetAllowed { s with turns := rest } = true := by simpa [resetAllowed] using hu
  rw [step_of_environment_turn ht (by simp), environmentMove, if_pos hok]

/-- Settles O2: the reset turn is `resetBlock`, which takes every register from `State.reset` and the environment from the state. -/
theorem resetKeepsTheDevice : Obligations.ResetKeepsTheDevice := by
  intro s rest ht hu
  exact ⟨_, step_of_reset_turn ht hu, sameRegisters_refl State.reset, rfl, rfl, rfl, rfl⟩

/-- Settles O47: reset is the row IDLE of every table, with the empty history, no hold, idle wires and no device. -/
theorem resetMeetsTheInvariants : Obligations.ResetMeetsTheInvariants :=
  ⟨resetBlock_sessionInv State.reset, holdInv_none rfl rfl, rfl, rfl⟩

/-! ## Registers that hold no value (10_state.md rule R44) -/

/-- An outcome that is the fault of a byte of the packet buffer that holds ⊥. -/
def FaultsAtByte (b : PktBuf) (o : Result) : Prop := ∃ i, pktGet b i = none ∧ o = .fault (.unwritten (.pkt i))

/-- Reading one byte either faults there or goes on with the byte. -/
theorem faultsAtByte_need {b : PktBuf} (i : Fin 7) {k : Byte → Result}
    (h : ∀ v, pktGet b i = some v → FaultsAtByte b (k v)) : FaultsAtByte b (need (pktGet b i) (.pkt i) k) := by
  cases hv : pktGet b i with
  | none => exact ⟨i, hv, rfl⟩
  | some v => exact h v hv

theorem faultsAtByte_execSend {s : State} (h : ∃ i, pktGet s.pkt i = none) : FaultsAtByte s.pkt (execSend s) := by
  refine faultsAtByte_need 0 fun _ h0 => faultsAtByte_need 1 fun _ h1 => faultsAtByte_need 2 fun _ h2 =>
    faultsAtByte_need 3 fun _ h3 => faultsAtByte_need 4 fun _ h4 => faultsAtByte_need 5 fun _ h5 =>
      faultsAtByte_need 6 fun _ h6 => ?_
  obtain ⟨i, hi⟩ := h
  fin_cases i <;> simp_all

theorem faultsAtByte_execLaneChk {s : State} (h : ∃ i, 1 ≤ i ∧ i ≤ 5 ∧ pktGet s.pkt i = none) :
    FaultsAtByte s.pkt (execLaneChk s) := by
  refine faultsAtByte_need 1 fun _ h1 => faultsAtByte_need 2 fun _ h2 => faultsAtByte_need 3 fun _ h3 =>
    faultsAtByte_need 4 fun _ h4 => faultsAtByte_need 5 fun _ h5 => ?_
  obtain ⟨i, hlo, hhi, hi⟩ := h
  fin_cases i <;> simp_all

/-- Settles O32: each instruction reads its registers in order, and the first that holds ⊥ ends it. -/
theorem unwrittenRegistersFault : Obligations.UnwrittenRegistersFault := by
  intro s
  refine ⟨fun h => ⟨need_of_none h .., need_of_none h ..⟩, fun ha h => ?_, fun h => need_of_none h ..,
    fun h => need_of_none h .., fun h => need_of_none h .., fun hd h => ?_, fun h => need_of_none h ..,
    faultsAtByte_execSend, faultsAtByte_execLaneChk⟩
  · obtain ⟨a, ha⟩ := Option.ne_none_iff_exists'.1 ha
    exact (need_of_some ha ..).trans (need_of_none h ..)
  · obtain ⟨d, hd⟩ := Option.ne_none_iff_exists'.1 hd
    exact (need_of_some hd ..).trans (need_of_none h ..)

/-! ## The seven device answers, each an answer in the sense of Laws/Device.lean -/

theorem isAnswer_open : IsAnswer answerOpen := .inl rfl
theorem isAnswer_getState : IsAnswer answerGetState := .inr (.inl rfl)
theorem isAnswer_setState : IsAnswer answerSetState := .inr (.inr (.inl rfl))
theorem isAnswer_setTimeouts : IsAnswer answerSetTimeouts := .inr (.inr (.inr (.inl rfl)))
theorem isAnswer_write : IsAnswer answerWrite := .inr (.inr (.inr (.inr (.inl rfl))))
theorem isAnswer_flush : IsAnswer answerFlush := .inr (.inr (.inr (.inr (.inr (.inl rfl)))))
theorem isAnswer_close : IsAnswer answerClose := .inr (.inr (.inr (.inr (.inr (.inr rfl)))))

/-! ## What every instruction leaves: the sampled registers (10_state.md rule R33) and the ports (rule R40) -/

/-- The four registers START samples and the port numbers of the device table are the same in both states. -/
structure Keeps (s t : State) : Prop where
  cam : t.cam = s.cam
  preset : t.preset = s.preset
  baud : t.baud = s.baud
  port : t.port = s.port
  ports : t.devs.map Prod.fst = s.devs.map Prod.fst

theorem keeps_self (s : State) : Keeps s s := ⟨rfl, rfl, rfl, rfl, rfl⟩

theorem keeps_raiseError (e : Err) (s : State) : Keeps s (raiseError e s) := by
  unfold raiseError
  split <;> exact ⟨rfl, rfl, rfl, rfl, rfl⟩

/-- A transaction keeps them, answered or not. -/
theorem keeps_serve {f : DevChoice → State → State} (hf : IsAnswer f) (op : BitVec 3) (s : State) : Keeps s (serve op f s) := by
  rcases serve_cases hf op s with ⟨-, h⟩ | ⟨c, rest, ok, d, n, l, k, e, -, h, hl, -⟩ <;> rw [h]
  · exact ⟨rfl, rfl, rfl, rfl, rfl⟩
  · exact ⟨rfl, rfl, rfl, rfl, hl⟩

/-- A micro-operation with a transaction keeps them if what it does after the answer does. -/
theorem keeps_await {u t : State} {k : State → Result} (hk : ∀ v w, k v = .next w → Keeps v w) (h : await u k = .next t) :
    Keeps u t := by
  unfold await at h
  split at h
  · obtain ⟨ha, hpr, hb, hp, hd⟩ := hk _ _ h
    exact ⟨ha, hpr, hb, hp, hd⟩
  · cases h
    exact keeps_self u

theorem Keeps.trans {s t u : State} (h : Keeps s t) (h' : Keeps t u) : Keeps s u :=
  ⟨h'.cam.trans h.cam, h'.preset.trans h.preset, h'.baud.trans h.baud, h'.port.trans h.port, h'.ports.trans h.ports⟩

/-- The transaction and the wait for it, with the payload on the wires. -/
theorem keeps_await_serve {s t : State} {f : DevChoice → State → State} (hf : IsAnswer f) {op : BitVec 3} {req : DevReq}
    {k : State → Result} (h : await (serve op f { s with req := req }) k = .next t) (hk : ∀ v w, k v = .next w → Keeps v w) :
    Keeps s t := by
  obtain ⟨ha, hpr, hb, hp, hd⟩ := (keeps_serve hf op { s with req := req }).trans (keeps_await hk h)
  exact ⟨ha, hpr, hb, hp, hd⟩

/-- A branch on the answer keeps them if both ends do. -/
theorem keeps_of_ite {s t u v : State} {b : Bool} (h : (if b then .next u else .next v : Result) = .next t) (hu : Keeps s u)
    (hv : Keeps s v) : Keeps s t := by
  cases b <;> cases h <;> assumption

theorem execOpenPort_keeps {s t : State} (h : execOpenPort s = .next t) : Keeps s t := by
  obtain ⟨p, -, h⟩ := need_next h
  exact keeps_await_serve isAnswer_open h
    fun _ _ hw => keeps_of_ite hw ⟨rfl, rfl, rfl, rfl, rfl⟩ ⟨rfl, rfl, rfl, rfl, rfl⟩

theorem execCfgGet_keeps {s t : State} (h : execCfgGet s = .next t) : Keeps s t :=
  keeps_await_serve isAnswer_getState h
    fun v _ hw => keeps_of_ite hw ⟨rfl, rfl, rfl, rfl, rfl⟩ (keeps_raiseError _ v)

theorem execCfgSet_keeps {s t : State} (h : execCfgSet s = .next t) : Keeps s t := by
  obtain ⟨d, -, h⟩ := need_next h
  obtain ⟨b, -, h⟩ := need_next h
  exact keeps_await_serve isAnswer_setState h
    fun v _ hw => keeps_of_ite hw ⟨rfl, rfl, rfl, rfl, rfl⟩ (keeps_raiseError _ v)

theorem execCfgTmo_keeps {s t : State} (h : execCfgTmo s = .next t) : Keeps s t :=
  keeps_await_serve isAnswer_setTimeouts h
    fun v _ hw => keeps_of_ite hw ⟨rfl, rfl, rfl, rfl, rfl⟩ (keeps_raiseError _ v)

theorem execSend_keeps {s t : State} (h : execSend s = .next t) : Keeps s t := by
  obtain ⟨k, -, h⟩ := needPacket_next h
  exact keeps_await_serve isAnswer_write h
    fun v _ hw => keeps_of_ite hw ⟨rfl, rfl, rfl, rfl, rfl⟩ (keeps_raiseError _ v)

theorem execVerify_keeps {s t : State} (h : execVerify s = .next t) : Keeps s t := by
  obtain ⟨n, -, h⟩ := need_next h
  split at h
  · obtain ⟨k, -, h⟩ := needPacket_next h
    cases h
    exact ⟨rfl, rfl, rfl, rfl, rfl⟩
  · cases h
    exact ⟨rfl, rfl, rfl, rfl, rfl⟩

theorem execFinalize_keeps {s t : State} (h : execFinalize s = .next t) : Keeps s t := by
  refine keeps_await_serve isAnswer_flush h fun v w hw => ?_
  cases hw
  exact ⟨rfl, rfl, rfl, rfl, rfl⟩

theorem execClose_keeps {s t : State} (h : execClose s = .next t) : Keeps s t := by
  refine keeps_await_serve isAnswer_close h fun v w hw => ?_
  cases hw
  exact ⟨rfl, rfl, rfl, rfl, rfl⟩

theorem encodeWith_keeps {s t : State} {a p : Byte} (h : encodeWith a p s = .next t) : Keeps s t := by
  rw [encodeWith_eq] at h
  cases h
  exact ⟨rfl, rfl, rfl, rfl, rfl⟩

theorem execEncode_keeps {s t : State} (h : execEncode s = .next t) : Keeps s t := by
  obtain ⟨a, -, h⟩ := need_next h
  obtain ⟨p, -, h⟩ := need_next h
  exact encodeWith_keeps h

theorem execCallPreset_keeps {s t : State} {a p c : Byte} (h : execCallPreset a p c s = .next t) : Keeps s t := by
  unfold execCallPreset at h
  split at h
  · exact encodeWith_keeps h
  · cases h

theorem keeps_putByte (i : Fin 7) (v : Byte) (s : State) : Keeps s (putByte i v s) := ⟨rfl, rfl, rfl, rfl, rfl⟩

/-- An operand lane. -/
theorem keeps_need_putByte {s t : State} {r : Option Byte} {n : RegName} {i : Fin 7}
    (h : need r n (fun v => .next (putByte i v s)) = .next t) : Keeps s t := by
  obtain ⟨v, -, h⟩ := need_next h
  cases h
  exact keeps_putByte i v s

theorem laneChecksum_keeps {s t : State} (h : laneChecksum s = .next t) : Keeps s t := by
  obtain ⟨b1, -, h⟩ := need_next h
  obtain ⟨b2, -, h⟩ := need_next h
  obtain ⟨b3, -, h⟩ := need_next h
  obtain ⟨b4, -, h⟩ := need_next h
  obtain ⟨b5, -, h⟩ := need_next h
  cases h
  exact keeps_putByte 6 _ s

/-- Every instruction but START leaves the sampled registers, and the ports of the device table. -/
theorem exec_keeps {i : Instr} {s t : State} (hi : i ≠ .start) (h : exec i s = .next t) : Keeps s t := by
  cases i with
  | callPreset a p c => exact execCallPreset_keeps h
  | start => exact absurd rfl hi
  | encode => exact execEncode_keeps h
  | openPort => exact execOpenPort_keeps h
  | cfgGet => exact execCfgGet_keeps h
  | cfgSet => exact execCfgSet_keeps h
  | cfgTmo => exact execCfgTmo_keeps h
  | send => exact execSend_keeps h
  | verify => exact execVerify_keeps h
  | finalize => exact execFinalize_keeps h
  | close => exact execClose_keeps h
  | halt => cases h; exact keeps_self s
  | laneSync => cases h; exact keeps_putByte 0 _ s
  | laneAddr => exact keeps_need_putByte h
  | laneCmd1 => cases h; exact keeps_putByte 2 _ s
  | laneCmd2 => cases h; exact keeps_putByte 3 _ s
  | laneData1 => cases h; exact keeps_putByte 4 _ s
  | laneData2 => exact keeps_need_putByte h
  | laneChk => exact laneChecksum_keeps h
  | devOpen => cases h; exact keeps_serve isAnswer_open 0 s
  | devGetState => cases h; exact keeps_serve isAnswer_getState 1 s
  | devSetState => cases h; exact keeps_serve isAnswer_setState 2 s
  | devSetTimeouts => cases h; exact keeps_serve isAnswer_setTimeouts 3 s
  | devWrite => cases h; exact keeps_serve isAnswer_write 4 s
  | devFlush => cases h; exact keeps_serve isAnswer_flush 5 s
  | devClose => cases h; exact keeps_serve isAnswer_close 6 s

/-- No instruction adds a port or takes one away. -/
theorem exec_ports {i : Instr} {s t : State} (h : exec i s = .next t) : t.devs.map Prod.fst = s.devs.map Prod.fst := by
  by_cases hi : i = .start
  · subst hi
    simp only [exec, execStart] at h
    split at h <;> cases h <;> rfl
  · exact (exec_keeps hi h).ports

/-- Tables that agree on holds have the same ports. -/
theorem ports_of_sameHolds {l m : List (Nat × Device)} (h : sameHolds l m) : m.map Prod.fst = l.map Prod.fst := by
  simpa [Function.comp_def] using congrArg (List.map Prod.fst) h

/-- No step adds a port or takes one away (log 36). -/
theorem step_ports {s t : State} (h : step s = .next t) : t.devs.map Prod.fst = s.devs.map Prod.fst := by
  rcases step_cases h with ⟨r, i, -, hx⟩ | ⟨r, rfl, -⟩ | ⟨-, -, -, -, -, hd | ⟨p, -, hd⟩ | ⟨p, hd⟩⟩
  · exact exec_ports (s := { s with turns := r }) hx
  · rfl
  · exact ports_of_sameHolds hd
  · rw [hd, devModify_keys]
  · rw [hd, devModify_keys]

/-- The canonical form depends on the ports only. -/
theorem devsWf_congr {l m : List (Nat × Device)} (h : m.map Prod.fst = l.map Prod.fst) (hl : devsWf l = true) :
    devsWf m = true := by
  rw [devsWf_iff_keys] at hl ⊢
  rwa [h]

/-- Settles O52: steps and instructions keep the list of port numbers, on which alone the canonical form depends. -/
theorem deviceTableStaysCanonical : Obligations.DeviceTableStaysCanonical :=
  ⟨fun _ _ hwf h => ⟨devsWf_congr (step_ports h) hwf, step_ports h⟩, fun _ _ _ hwf h => devsWf_congr (exec_ports h) hwf⟩

/-! ## The input wires: nothing but START sees them (10_state.md rule R33) -/

/-- The state with other values on the host's input wires. -/
def driven (h : HostIn) (s : State) : State := { s with inp := h }

/-- A register read does not see the wires. -/
theorem need_driven {α : Type} {h : HostIn} {r : Option α} {n : RegName} {k k' : α → Result}
    (hk : ∀ v, k' v = mapNext (driven h) (k v)) : need r n k' = mapNext (driven h) (need r n k) := by
  cases r with
  | none => rfl
  | some v => exact hk v

theorem needPacket_driven {h : HostIn} {b : PktBuf} {k k' : Packet → Result}
    (hk : ∀ v, k' v = mapNext (driven h) (k v)) : needPacket b k' = mapNext (driven h) (needPacket b k) :=
  need_driven fun _ => need_driven fun _ => need_driven fun _ => need_driven fun _ => need_driven fun _ =>
    need_driven fun _ => need_driven fun _ => hk _

theorem modifyLinked_driven (f : Device → Device) (h : HostIn) (s : State) :
    modifyLinked f (driven h s) = driven h (modifyLinked f s) := by
  cases hl : s.link with
  | none => rw [modifyLinked_none hl, modifyLinked_none (s := driven h s) hl]
  | some p => rw [modifyLinked_some hl, modifyLinked_some (s := driven h s) hl]; rfl

theorem queueBytes_driven (n : Nat) (h : HostIn) (s : State) : queueBytes n (driven h s) = driven h (queueBytes n s) :=
  modifyLinked_driven _ h s

/-- A device answers the request wires, whatever stands on the input wires. -/
theorem answer_driven {f : DevChoice → State → State} (hf : IsAnswer f) (c : DevChoice) (h : HostIn) (s : State) :
    f c (driven h s) = driven h (f c s) := by
  have hlinked : linked (driven h s) = linked s := rfl
  rcases hf with hf | hf | hf | hf | hf | hf | hf <;> subst hf
  · have hcan : canOpen (driven h s) = canOpen s := rfl
    unfold answerOpen
    rw [hcan]
    split <;> rfl
  · unfold answerGetState
    rw [hlinked]
    split
    · rfl
    · split <;> rfl
  · unfold answerSetState
    rw [hlinked, modifyLinked_driven, modifyLinked_driven]
    split <;> rfl
  · unfold answerSetTimeouts
    rw [hlinked, modifyLinked_driven, modifyLinked_driven]
    split <;> rfl
  · unfold answerWrite
    rw [hlinked, queueBytes_driven, queueBytes_driven]
    split <;> rfl
  · unfold answerFlush
    rw [modifyLinked_driven]
    rfl
  · unfold answerClose
    rw [modifyLinked_driven]
    rfl

theorem serve_driven {f : DevChoice → State → State} (hf : IsAnswer f) (op : BitVec 3) (h : HostIn) (s : State) :
    serve op f (driven h s) = driven h (serve op f s) := by
  cases ha : s.answers with
  | nil => rw [serve_nil ha, serve_nil (s := driven h s) ha]; rfl
  | cons c rest =>
    rw [serve_cons ha, serve_cons (s := driven h s) ha]
    exact answer_driven hf c h (withAnswers rest (raiseReq op s))

/-- A wait goes on or holds the request alike, and so does what follows it. -/
theorem await_serve_driven {f : DevChoice → State → State} (hf : IsAnswer f) (op : BitVec 3) (h : HostIn) (s : State)
    {k : State → Result} (hk : ∀ u, k (driven h u) = mapNext (driven h) (k u)) :
    await (serve op f (driven h s)) k = mapNext (driven h) (await (serve op f s) k) := by
  rw [serve_driven hf]
  cases hv : (serve op f s).rsp.valid with
  | false => rw [await_waits hv, await_waits (s := driven h _) hv]; rfl
  | true => rw [await_answered hv, await_answered (s := driven h _) hv]; exact hk (settle (serve op f s))

theorem raiseError_driven (e : Err) (h : HostIn) (s : State) : raiseError e (driven h s) = driven h (raiseError e s) := by
  cases hh : s.handle with
  | true => rw [raiseError_held hh, raiseError_held (s := driven h s) hh]; rfl
  | false => rw [raiseError_free hh, raiseError_free (s := driven h s) hh]; rfl

theorem mapNext_ite (g : State → State) (b : Bool) (x y : State) :
    mapNext g (if b then .next x else .next y) = if b then .next (g x) else .next (g y) := by
  cases b <;> rfl

theorem encodeWith_driven (a p : Byte) (h : HostIn) (s : State) :
    encodeWith a p (driven h s) = mapNext (driven h) (encodeWith a p s) := by
  rw [encodeWith_eq, encodeWith_eq]
  rfl

/-- With other values on the input wires every instruction but START does the same. -/
theorem exec_driven {i : Instr} (hi : i ≠ .start) (h : HostIn) (s : State) :
    exec i (driven h s) = mapNext (driven h) (exec i s) := by
  cases i with
  | callPreset a p c =>
    simp only [exec, execCallPreset]
    split
    · exact encodeWith_driven a p h s
    · rfl
  | start => exact absurd rfl hi
  | encode => exact need_driven fun a => need_driven fun p => encodeWith_driven a p h s
  | openPort =>
    refine need_driven fun p => await_serve_driven isAnswer_open 0 h (putPort p s) fun u => ?_
    rw [mapNext_ite]
    rfl
  | cfgGet =>
    simp only [exec, execCfgGet]
    refine await_serve_driven isAnswer_getState 1 h s fun u => ?_
    rw [mapNext_ite, raiseError_driven]
    rfl
  | cfgSet =>
    refine need_driven fun d => need_driven fun b =>
      await_serve_driven isAnswer_setState 2 h (putDcb (lineSettings b d) s) fun u => ?_
    rw [mapNext_ite, raiseError_driven]
    rfl
  | cfgTmo =>
    simp only [exec, execCfgTmo]
    refine await_serve_driven isAnswer_setTimeouts 3 h (putTmo tmoCfg s) fun u => ?_
    rw [mapNext_ite, raiseError_driven]
    rfl
  | send =>
    refine needPacket_driven fun k => await_serve_driven isAnswer_write 4 h (putData k s) fun u => ?_
    rw [mapNext_ite, raiseError_driven]
    rfl
  | verify =>
    refine need_driven fun n => ?_
    split
    · exact needPacket_driven fun k => rfl
    · rfl
  | finalize =>
    simp only [exec, execFinalize]
    exact await_serve_driven isAnswer_flush 5 h s fun u => rfl
  | close =>
    simp only [exec, execClose]
    exact await_serve_driven isAnswer_close 6 h s fun u => rfl
  | halt => rfl
  | laneSync => rfl
  | laneAddr => exact need_driven fun a => rfl
  | laneCmd1 => rfl
  | laneCmd2 => rfl
  | laneData1 => rfl
  | laneData2 => exact need_driven fun p => rfl
  | laneChk =>
    exact need_driven fun _ => need_driven fun _ => need_driven fun _ => need_driven fun _ => need_driven fun _ => rfl
  | devOpen => exact congrArg _ (serve_driven isAnswer_open 0 h s)
  | devGetState => exact congrArg _ (serve_driven isAnswer_getState 1 h s)
  | devSetState => exact congrArg _ (serve_driven isAnswer_setState 2 h s)
  | devSetTimeouts => exact congrArg _ (serve_driven isAnswer_setTimeouts 3 h s)
  | devWrite => exact congrArg _ (serve_driven isAnswer_write 4 h s)
  | devFlush => exact congrArg _ (serve_driven isAnswer_flush 5 h s)
  | devClose => exact congrArg _ (serve_driven isAnswer_close 6 h s)

/-- Settles O9: every instruction but START leaves the four registers and commutes with driving the input wires. -/
theorem inputsAreSampledByStartOnly : Obligations.InputsAreSampledByStartOnly := by
  intro i s hi
  refine ⟨fun t h => ?_, fun h => exec_driven hi h s⟩
  have hk := exec_keeps hi h
  exact ⟨hk.cam, hk.preset, hk.baud, hk.port⟩

end Sys2Proof.Machine

namespace Sys2Proof.Machine

open Sys2Proof.Safety

/-! ## Other agents and the port of the connection (20_memory.md rule R61, 70_reset_and_hazards.md rule R209; log 35) -/

theorem otherOpens_held {s : State} {p : HostInt} (h : s.link = some p) : otherOpens p s = s := if_pos h

theorem otherOpens_free {s : State} {p : HostInt} (h : s.link ≠ some p) :
    otherOpens p s = modifyAt p (fun d => { d with heldByOther := true }) s := if_neg h

theorem portSettingsChange_held {s : State} {p : HostInt} {d : Dcb} {m : Tmo} (h : s.link = some p) :
    portSettingsChange p d m s = s := if_pos h

/-- OPEN of a port that another agent holds ends in HALT, whatever the device would have answered. -/
theorem execOpenPort_of_heldByOther {s : State} {p : HostInt} {d : Device} {c : DevChoice} {rest : List DevChoice}
    (hp : s.port = some p) (hd : deviceAt s p = some d) (hh : d.heldByOther = true) (ha : s.answers = c :: rest) :
    ∃ u, execOpenPort s = .next (haltWith .portUnavailable u) ∧ u.ev = s.ev ++ [.openPort p false] := by
  rcases execOpenPort_cases hp with ⟨hnil, -⟩ | ⟨c', rest', r, n, -, ⟨-, ⟨v, hv, hfree⟩, -⟩ | h⟩
  · simp [ha] at hnil
  · obtain rfl : d = v := Option.some.inj (hd.symm.trans hv)
    simp [hh] at hfree
  · exact ⟨_, h, rfl⟩

/-- A port that another agent has just opened is one that OPEN finds held. -/
theorem execOpenPort_otherOpens {s : State} {p : HostInt} {d : Device} {c : DevChoice} {rest : List DevChoice}
    (hl : s.link = none) (hd : deviceAt s p = some d) (hp : s.port = some p) (ha : s.answers = c :: rest) :
    ∃ u, execOpenPort (otherOpens p s) = .next (haltWith .portUnavailable u) ∧ u.ev = s.ev ++ [.openPort p false] := by
  rw [otherOpens_free (by simp [hl])]
  refine execOpenPort_of_heldByOther (d := { d with heldByOther := true }) hp ?_ rfl ha
  rw [deviceAt_modifyAt, if_pos rfl, hd, Option.map_some]

/-- Settles O41: the other agent's moves spare the port of the connection, and OPEN fails on a port it has taken. -/
theorem holdIsExclusive : Obligations.HoldIsExclusive := by
  refine ⟨fun s p rest ht hl => ?_, fun s p d m rest ht hl => ?_, fun s p d c rest more ht hl hd hp ha => ?_⟩
  · rw [step_of_environment_turn ht (by simp), environmentMove, otherOpens_held (s := { s with turns := rest }) hl]
  · rw [step_of_environment_turn ht (by simp), environmentMove, portSettingsChange_held (s := { s with turns := rest }) hl]
  · obtain ⟨u, hopen, hev⟩ := execOpenPort_otherOpens (s := { s with turns := rest }) hl hd hp ha
    refine ⟨_, _, step_of_environment_turn ht (by simp), hopen, rfl, rfl, ?_⟩
    rw [haltWith_ev, hev, List.append_assoc]
    rfl

/-! ## Transactions outside the connection (logs 14, 15): the answer is all that happens -/

theorem answerOpen_linked {c : DevChoice} {s : State} (h : s.link ≠ none) :
    answerOpen c s = record (.openPort s.req.port false) (answerOk false s) := by
  have hc : canOpen s = false := Bool.eq_false_iff.2 fun hc => h ((canOpen_iff s).1 hc).1
  exact answerOpen_fail (by rw [hc, Bool.and_false])

theorem answerGetState_unlinked {c : DevChoice} {s : State} (h : s.link = none) :
    answerGetState c s = record (.getState none) (answerOk false s) := answerGetState_fail (.inr (linked_none h))

theorem answerSetState_unlinked {c : DevChoice} {s : State} (h : s.link = none) :
    answerSetState c s = record (.setState s.req.dcb false) (answerOk false s) := by
  rw [answerSetState_fail (by simp [linked_none h]), modifyLinked_none h]

theorem answerSetTimeouts_unlinked {c : DevChoice} {s : State} (h : s.link = none) :
    answerSetTimeouts c s = record (.setTimeouts s.req.tmo false) (answerOk false s) := by
  rw [answerSetTimeouts_fail (by simp [linked_none h]), modifyLinked_none h]

theorem answerWrite_unlinked {c : DevChoice} {s : State} (h : s.link = none) :
    answerWrite c s = record (.write (packetOfWord s.req.data) none) (answerOk false s) := by
  rw [answerWrite_fail (by simp [linked_none h]), queueBytes, modifyLinked_none h]

theorem answerFlush_unlinked {c : DevChoice} {s : State} (h : s.link = none) :
    answerFlush c s = record .flush (answerOk c.ok s) := by
  rw [answerFlush, modifyLinked_none h]

theorem answerClose_unlinked {c : DevChoice} {s : State} (h : s.link = none) :
    answerClose c s = record .close (answerOk c.ok s) := by
  have hs : { s with link := none } = s := by rw [← h]
  rw [answerClose, modifyLinked_none h, hs]

/-- A transaction whose answer is bare, without payload and without a change of the device side, touches the wires and EV only. -/
theorem serve_of_bare_answer {op : BitVec 3} {f : DevChoice → State → State} {s : State} {c : DevChoice}
    {rest : List DevChoice} {e : Event} {ok : Bool} (ha : s.answers = c :: rest)
    (hf : f c (withAnswers rest (raiseReq op s)) = record e (answerOk ok (withAnswers rest (raiseReq op s)))) :
    sameRegisters s (serve op f s) ∧ (serve op f s).rsp.valid = true ∧ (serve op f s).rsp.ok = ok ∧
      (serve op f s).devs = s.devs ∧ (serve op f s).link = s.link ∧ (serve op f s).ev = s.ev ++ [e] := by
  rw [serve_cons ha, hf]
  simp [sameRegisters]

/-- Settles O39: a held connection makes the answer of Open bare, and without a connection the other six are. -/
theorem transactionsOutsideTheConnection : Obligations.TransactionsOutsideTheConnection := by
  intro s c rest ha
  refine ⟨fun hl => ?_, fun hl => ⟨?_, ?_, ?_, ?_, ?_, ?_⟩⟩
  · obtain ⟨regs, valid, fail, devs, link, ev⟩ := serve_of_bare_answer (op := 0) ha (answerOpen_linked hl)
    exact ⟨_, rfl, regs, valid, fail, link, devs, ev⟩
  · obtain ⟨regs, valid, fail, devs, -, ev⟩ := serve_of_bare_answer (op := 1) ha (answerGetState_unlinked hl)
    exact ⟨_, rfl, regs, valid, fail, devs, ev⟩
  · obtain ⟨regs, valid, fail, devs, -, ev⟩ := serve_of_bare_answer (op := 2) ha (answerSetState_unlinked hl)
    exact ⟨_, rfl, regs, valid, fail, devs, ev⟩
  · obtain ⟨regs, valid, fail, devs, -, ev⟩ := serve_of_bare_answer (op := 3) ha (answerSetTimeouts_unlinked hl)
    exact ⟨_, rfl, regs, valid, fail, devs, ev⟩
  · obtain ⟨regs, valid, fail, devs, -, ev⟩ := serve_of_bare_answer (op := 4) ha (answerWrite_unlinked hl)
    exact ⟨_, rfl, regs, valid, fail, devs, ev⟩
  · obtain ⟨regs, valid, -, devs, link, ev⟩ := serve_of_bare_answer (op := 5) ha (answerFlush_unlinked hl)
    exact ⟨_, rfl, regs, valid, devs, link.trans hl, ev⟩
  · obtain ⟨regs, valid, -, devs, link, ev⟩ := serve_of_bare_answer (op := 6) ha (answerClose_unlinked hl)
    exact ⟨_, rfl, regs, valid, devs, link.trans hl, ev⟩

end Sys2Proof.Machine

namespace Sys2Proof.Machine

/-! ## The packet's checksum and well-formedness (30_encoding.md rules R74, R75) -/

/-- The checksum as a number: the sum of bytes 1 to 5 modulo 256. -/
theorem checksum_toNat (k : Packet) :
    (checksum k).toNat = (k.b1.toNat + k.b2.toNat + k.b3.toNat + k.b4.toNat + k.b5.toNat) % 256 := by
  simp [checksum, sum8, add_assoc]

/-- With the constant bytes in place the checksum is a + p + 7 (rule R71). -/
theorem checksum_encodePacket_toNat (a p : Byte) : (checksum (encodePacket a p)).toNat = (a.toNat + p.toNat + 7) % 256 := by
  have h : (checksum (encodePacket a p)).toNat = (a.toNat + 0 + 7 + 0 + p.toNat) % 256 := checksum_toNat _
  rw [h]
  congr 1
  omega

theorem eq_checksum_encodePacket_iff (a p c : Byte) :
    c = checksum (encodePacket a p) ↔ c.toNat = (a.toNat + p.toNat + 7) % 256 := by
  rw [← checksum_encodePacket_toNat, BitVec.toNat_inj]

/-- The five clauses of rule R75. -/
theorem wellFormed_iff (k : Packet) :
    k.wellFormed = true ↔
      k.b0 = syncByte ∧ k.b2 = cmd1Byte ∧ k.b3 = cmd2Byte ∧ k.b4 = data1Byte ∧ k.b6 = checksum k := by
  simp [Packet.wellFormed, and_assoc]

theorem wellFormed_encodePacket (a p : Byte) : (encodePacket a p).wellFormed = true :=
  (wellFormed_iff _).2 ⟨rfl, rfl, rfl, rfl, rfl⟩

/-- The well-formed packets are those ENCODE produces (rule R75). -/
theorem wellFormed_iff_eq_encodePacket (k : Packet) : k.wellFormed = true ↔ k = encodePacket k.b1 k.b5 := by
  constructor
  · intro h
    obtain ⟨b0, b1, b2, b3, b4, b5, b6⟩ := k
    obtain ⟨rfl, rfl, rfl, rfl, h6⟩ := (wellFormed_iff _).1 h
    exact congrArg (Packet.mk _ _ _ _ _ _) h6
  · intro h
    rw [h]
    exact wellFormed_encodePacket _ _

/-- Settles O16: the checksum clause read as a number, and the packet rebuilt from its two free bytes. -/
theorem wellFormedPacketsAreTheEncodedOnes : Obligations.WellFormedPacketsAreTheEncodedOnes := by
  intro k
  refine ⟨?_, wellFormed_iff_eq_encodePacket k⟩
  rw [wellFormed_iff, ← BitVec.toNat_inj (x := k.b6), checksum_toNat]
  rfl

/-- Settles O15: the checksum test decides between ENCODE's effect and the refusal. -/
theorem callPresetBuildsItsPacket : Obligations.CallPresetBuildsItsPacket := by
  intro s a p c
  simp only [← eq_checksum_encodePacket_iff, ne_eq]
  constructor
  · rintro rfl
    exact (if_pos rfl).trans (encodeWith_eq a p s)
  · intro h
    exact if_neg h

/-! ## START samples the input wires (30_encoding.md rule R73) -/

/-- Truncation reads the two's-complement value of the wires. -/
theorem trunc8_eq_ofInt_toInt (v : HostInt) : trunc8 v = BitVec.ofInt 8 v.toInt := by
  rw [← trunc8_ofInt, BitVec.ofInt_toInt]

/-- Settles O7: the branch of START with the strobe up, its two truncations read as two's complement. -/
theorem startSamplesAndTruncates : Obligations.StartSamplesAndTruncates := by
  intro s hs
  rw [← trunc8_eq_ofInt_toInt, ← trunc8_eq_ofInt_toInt]
  exact if_pos hs

/-! ## Decoder and encoder of each format (30_encoding.md rules R70, R71, R82, R84, R87) -/

/-- The seven bytes of a number laid out again are that number (rule R71). -/
theorem packetWord_packetOfWord (w : BitVec 56) : packetWord (packetOfWord w) = w := by
  have glue (n : Nat) : w.extractLsb' n 8 ++ w.extractLsb' 0 n = w.extractLsb' 0 (8 + n) :=
    BitVec.extractLsb'_append_extractLsb'_eq_extractLsb' (Nat.zero_add n).symm
  simp only [packetWord, packetOfWord, glue, BitVec.extractLsb'_eq_self]

theorem packetWord_inj {k m : Packet} : packetWord k = packetWord m ↔ k = m :=
  ⟨fun h => by rw [← packetOfWord_packetWord k, h, packetOfWord_packetWord], congrArg _⟩

/-- A well-formed packet is its two operands and its checksum between the constant bytes. -/
theorem packetFields_of_wellFormed {k : Packet} (h : k.wellFormed = true) : packetFields k.b1 k.b5 k.b6 = k := by
  obtain ⟨h0, h2, h3, h4, -⟩ := (wellFormed_iff k).1 h
  rw [packetFields, ← h0, ← h2, ← h3, ← h4]

/-- The constraint on CALL_PRESET is that on its packet. -/
theorem wellFormed_callPreset (a p c : Byte) : (Instr.callPreset a p c).wellFormed = (packetFields a p c).wellFormed := rfl

/-- The decoder accepts the well-formed packets, and gives their operands and checksum. -/
theorem decodePacket_eq_ok_iff_fields {k : Packet} {i : Instr} :
    decodePacket k = .ok i ↔ k.wellFormed = true ∧ i = .callPreset k.b1 k.b5 k.b6 := by
  rw [wellFormed_iff]
  unfold decodePacket
  constructor
  · intro h
    split_ifs at h with h0 h2 h3 h4 h6
    cases h
    exact ⟨⟨not_not.1 h0, not_not.1 h2, not_not.1 h3, not_not.1 h4, not_not.1 h6⟩, rfl⟩
  · rintro ⟨⟨h0, h2, h3, h4, h6⟩, rfl⟩
    simp [h0, h2, h3, h4, ← h6]

/-! Each decoder inverts the encoder on the well-formed instructions of its format. -/

theorem decodePacket_eq_ok_iff {k : Packet} {i : Instr} :
    decodePacket k = .ok i ↔ i.wellFormed = true ∧ formatOf i = .pkt7 ∧ encode i = (packetWord k).toNat := by
  rw [decodePacket_eq_ok_iff_fields]
  constructor
  · rintro ⟨hk, rfl⟩
    rw [wellFormed_callPreset, encode, packetFields_of_wellFormed hk]
    exact ⟨hk, rfl, rfl⟩
  · rintro ⟨hi, hf, hw⟩
    cases i with
    | callPreset a p c =>
      obtain rfl : packetFields a p c = k := packetWord_inj.1 (BitVec.eq_of_toNat_eq hw)
      exact ⟨hi, rfl⟩
    | _ => cases hf

theorem decodeUpc_eq_ok_iff {c : BitVec 4} {i : Instr} :
    decodeUpc c = .ok i ↔ i.wellFormed = true ∧ formatOf i = .upc4 ∧ encode i = c.toNat := by
  unfold decodeUpc
  constructor
  · intro h
    split at h <;> cases h <;> exact ⟨rfl, rfl, .symm ‹_›⟩
  · rintro ⟨-, hf, hc⟩
    rw [← hc]
    cases i <;> cases hf <;> rfl

theorem decodeLane_eq_ok_iff {c : BitVec 3} {i : Instr} :
    decodeLane c = .ok i ↔ i.wellFormed = true ∧ formatOf i = .lane3 ∧ encode i = c.toNat := by
  unfold decodeLane
  constructor
  · intro h
    split at h <;> cases h <;> exact ⟨rfl, rfl, .symm ‹_›⟩
  · rintro ⟨-, hf, hc⟩
    rw [← hc]
    cases i <;> cases hf <;> rfl

theorem decodeDevOp_eq_ok_iff {c : BitVec 3} {i : Instr} :
    decodeDevOp c = .ok i ↔ i.wellFormed = true ∧ formatOf i = .devop3 ∧ encode i = c.toNat := by
  unfold decodeDevOp
  constructor
  · intro h
    split at h <;> cases h <;> exact ⟨rfl, rfl, .symm ‹_›⟩
  · rintro ⟨-, hf, hc⟩
    rw [← hc]
    cases i <;> cases hf <;> rfl

/-- The word of an instruction fits its format. -/
theorem encode_lt (i : Instr) : encode i < 2 ^ formatWidth (formatOf i) := by
  cases i with
  | callPreset a p c => exact (Laws.Encoding.callPreset a p c).1
  | _ => decide

/-- A word decodes to the one well-formed instruction of its format that encodes to it, if there is one. -/
theorem decodeWord_eq_ok_iff {f : Format} {w : Nat} {i : Instr} :
    decodeWord f w = .ok i ↔ i.wellFormed = true ∧ formatOf i = f ∧ encode i = w := by
  unfold decodeWord
  split_ifs with hw
  · refine ⟨nofun, ?_⟩
    rintro ⟨-, rfl, rfl⟩
    exact absurd (encode_lt i) (Nat.not_lt.2 hw)
  · have hfit : (BitVec.ofNat (formatWidth f) w).toNat = w := Nat.mod_eq_of_lt (Nat.not_le.1 hw)
    cases f with
    | pkt7 => rw [decodePacket_eq_ok_iff, packetWord_packetOfWord, show (BitVec.ofNat 56 w).toNat = w from hfit]
    | upc4 => rw [decodeUpc_eq_ok_iff, show (BitVec.ofNat 4 w).toNat = w from hfit]
    | lane3 => rw [decodeLane_eq_ok_iff, show (BitVec.ofNat 3 w).toNat = w from hfit]
    | devop3 => rw [decodeDevOp_eq_ok_iff, show (BitVec.ofNat 3 w).toNat = w from hfit]

/-- Settles O43: the decoder is the inverse of the encoder, read from left to right. -/
theorem encodeOfDecodeIsTheWord : Obligations.EncodeOfDecodeIsTheWord :=
  fun _ _ _ h => decodeWord_eq_ok_iff.1 h

/-! ### Words as bytes -/

theorem length_natToBytes (n w : Nat) : (natToBytes n w).length = n := by
  induction n generalizing w with
  | zero => rfl
  | succ n ih => rw [natToBytes, List.length_append, ih, List.length_singleton]

theorem bytesToNat_append_singleton (bs : List Byte) (b : Byte) : bytesToNat (bs ++ [b]) = bytesToNat bs * 256 + b.toNat :=
  List.foldl_append

/-- A number that fits in `n` bytes is read back from them. -/
theorem bytesToNat_natToBytes {n w : Nat} (h : w < 256 ^ n) : bytesToNat (natToBytes n w) = w := by
  induction n generalizing w with
  | zero => exact (Nat.lt_one_iff.1 h).symm
  | succ n ih =>
    have hdiv : w / 256 < 256 ^ n := Nat.div_lt_of_lt_mul (by rwa [← Nat.pow_succ'])
    rw [natToBytes, bytesToNat_append_singleton, ih hdiv, BitVec.toNat_ofNat]
    exact Nat.div_add_mod' w 256

theorem pow_formatWidth_le (f : Format) : 2 ^ formatWidth f ≤ 256 ^ formatBytes f := by
  cases f <;> decide

/-- The bytes of an instruction decode as its word does. -/
theorem decodeBytes_encodeBytes (i : Instr) :
    decodeBytes (formatOf i) (encodeBytes i) = decodeWord (formatOf i) (encode i) := by
  have hfit : encode i < 256 ^ formatBytes (formatOf i) := (encode_lt i).trans_le (pow_formatWidth_le _)
  rw [decodeBytes, encodeBytes, length_natToBytes, bytesToNat_natToBytes hfit]
  exact if_neg fun h => h rfl

/-- Settles O42: the decoder is the inverse of the encoder, read from right to left, and bytes carry the whole word. -/
theorem decodeOfEncodeIsTheInstruction : Obligations.DecodeOfEncodeIsTheInstruction := by
  intro i hi
  have hword : decodeWord (formatOf i) (encode i) = .ok i := decodeWord_eq_ok_iff.2 ⟨hi, rfl, rfl⟩
  exact ⟨hword, (decodeBytes_encodeBytes i).trans hword⟩

/-! ### The packet's row of the opcode table (30_encoding.md rule R71) -/

theorem decodeWord_pkt7 (w : BitVec 56) : decodeWord .pkt7 w.toNat = decodePacket (packetOfWord w) := by
  refine (if_neg (Nat.not_le.2 w.isLt)).trans ?_
  simp only [BitVec.ofNat_toNat, BitVec.setWidth_eq]

/-- The mask leaves the four constant bytes, and the match gives them their values. -/
theorem packetWord_mask_match_iff (k : Packet) :
    packetWord k &&& 0xFF00FFFFFF0000#56 = 0xFF000007000000#56 ↔
      k.b0 = syncByte ∧ k.b2 = cmd1Byte ∧ k.b3 = cmd2Byte ∧ k.b4 = data1Byte := by
  have keep (b : Byte) : b &&& 0xFF#8 = b := BitVec.and_allOnes
  rw [show 0xFF00FFFFFF0000#56 = packetWord ⟨0xFF#8, 0#8, 0xFF#8, 0xFF#8, 0xFF#8, 0#8, 0#8⟩ from by decide,
    show 0xFF000007000000#56 = packetWord ⟨syncByte, 0#8, cmd1Byte, cmd2Byte, data1Byte, 0#8, 0#8⟩ from by decide,
    packetWord_and, packetWord_inj]
  simp only [keep, BitVec.and_zero, Packet.mk.injEq, true_and, and_true]

/-- Between the constant bytes the checksum clause is that of rule R71. -/
theorem wellFormed_iff_fields (k : Packet) :
    k.wellFormed = true ↔
      (k.b0 = syncByte ∧ k.b2 = cmd1Byte ∧ k.b3 = cmd2Byte ∧ k.b4 = data1Byte) ∧
        k.b6.toNat = (k.b1.toNat + k.b5.toNat + 7) % 256 := by
  rw [wellFormed_iff_eq_encodePacket, ← eq_checksum_encodePacket_iff]
  obtain ⟨b0, b1, b2, b3, b4, b5, b6⟩ := k
  simp only [encodePacket, lane, checksum, Packet.mk.injEq, true_and, and_assoc]

/-- Settles O44: a word decodes exactly if its packet is well formed, which is the constant bytes and the checksum clause. -/
theorem packetsAreMaskMatchAndChecksum : Obligations.PacketsAreMaskMatchAndChecksum := by
  intro w
  have hdecodes : (∃ i, decodeWord .pkt7 w.toNat = .ok i) ↔ (packetOfWord w).wellFormed = true := by
    simp only [decodeWord_pkt7, decodePacket_eq_ok_iff_fields, exists_and_left, exists_eq, and_true]
  rw [hdecodes, wellFormed_iff_fields, ← packetWord_mask_match_iff, packetWord_packetOfWord]
  rfl

/-- Settles O45, by running the decoder on each word. -/
theorem specWordsDecode : Obligations.SpecWordsDecode := by
  unfold Obligations.SpecWordsDecode
  decide

/-! ## What the micro-program counter selects (30_encoding.md rules R84, R86) -/

/-- Only the packet format constrains its operands. -/
theorem wellFormed_of_code {i : Instr} (h : formatOf i ≠ .pkt7) : i.wellFormed = true := by
  cases i with
  | callPreset => exact absurd rfl h
  | _ => rfl

/-- With no turn listed a step runs the micro-operation whose code is in UPC. -/
theorem step_of_code {s : State} (ht : s.turns = []) (i : Instr) (hf : formatOf i = .upc4) (hc : s.upc.toNat = encode i) :
    step s = exec i s := by
  have hw : i.wellFormed = true := wellFormed_of_code (by rw [hf]; decide)
  exact (stepRunsTheDecodedMicroOp s i (decodeUpc_eq_ok_iff.2 ⟨hw, hf, hc.symm⟩)).1 ht

/-- Settles O5: each code is the encoding of the micro-operation of its name. -/
theorem upcCodesSelectTheMicroOps : Obligations.UpcCodesSelectTheMicroOps := fun _ ht =>
  ⟨step_of_code ht .start rfl, step_of_code ht .encode rfl, step_of_code ht .openPort rfl, step_of_code ht .cfgGet rfl,
    step_of_code ht .cfgSet rfl, step_of_code ht .cfgTmo rfl, step_of_code ht .send rfl, step_of_code ht .verify rfl,
    step_of_code ht .finalize rfl, step_of_code ht .close rfl, step_of_code ht .halt rfl⟩

theorem decodeUpc_of_eleven_le {c : BitVec 4} (h : 11 ≤ c.toNat) : decodeUpc c = .error .noMicroOp := by
  unfold decodeUpc
  split
  case h_12 => rfl
  all_goals omega

/-- Settles O6: the decoder has no micro-operation for the code, and the fetch refuses with it. -/
theorem upcCodesFromElevenAreRefused : Obligations.UpcCodesFromElevenAreRefused := by
  intro s ht hu
  rw [step_of_no_turn ht, sequencerStep, fetch, decodeUpc_of_eleven_le hu]

end Sys2Proof.Machine

namespace Sys2Proof.Machine

open Sys2Proof.Safety

/-! ## A session with its answers at hand ends (30_encoding.md rule R85, 60_exceptions.md rule R185) -/

/-- `v` is further on than the code `c`, with the turns and the answers of `u`. -/
structure GoesOn (c : BitVec 4) (u v : State) : Prop where
  upc : c.toNat < v.upc.toNat
  turns : v.turns = u.turns
  answers : v.answers = u.answers

/-- From `s` to `t` the sequencer has gone forward, and only a micro-operation with a transaction has taken an answer. -/
structure Advances (s t : State) : Prop where
  upc : s.upc.toNat < t.upc.toNat
  turns : t.turns = s.turns
  answers : s.answers.length ≤ t.answers.length + if (transactionOf s.upc).isSome then 1 else 0

/-- `v` is at the code `d`, which is further on. -/
theorem goesOn_at {c : BitVec 4} {u v : State} (d : BitVec 4) (hv : v.upc = d ∧ v.turns = u.turns ∧ v.answers = u.answers)
    (hlt : c.toNat < d.toNat) : GoesOn c u v :=
  ⟨hv.1 ▸ hlt, hv.2.1, hv.2.2⟩

theorem goesOn_raiseError {c : BitVec 4} (hc : c.toNat < upcClose.toNat) (e : Err) (u : State) : GoesOn c u (raiseError e u) := by
  unfold raiseError
  split
  · exact goesOn_at upcClose ⟨rfl, rfl, rfl⟩ hc
  · exact goesOn_at upcHalt ⟨rfl, rfl, rfl⟩ (hc.trans (by decide))

/-- A branch on the answer goes on if both ends do. -/
theorem goesOn_of_ite {c : BitVec 4} {u v x y : State} {b : Bool}
    (h : (if b then .next x else .next y : Result) = .next v) (hx : GoesOn c u x) (hy : GoesOn c u y) : GoesOn c u v := by
  cases b <;> cases h <;> assumption

/-- A micro-operation without a transaction leaves the answers. -/
theorem advances_of_goesOn {s t : State} {c : BitVec 4} (hu : s.upc = c) (h : GoesOn c s t) : Advances s t :=
  ⟨hu ▸ h.upc, h.turns, by rw [h.answers]; exact Nat.le_add_right _ _⟩

/-- A transaction with an answer at hand takes it, and the micro-operation goes on. -/
theorem advances_of_await_serve {s t : State} {f : DevChoice → State → State} (hf : IsAnswer f) {op : BitVec 3} {req : DevReq}
    {k : State → Result} {c : BitVec 4} (hc : (transactionOf c).isSome = true) (hu : s.upc = c) (ha : s.answers ≠ [])
    (h : await (serve op f { s with req := req }) k = .next t) (hk : ∀ u v, k u = .next v → GoesOn c u v) :
    Advances s t := by
  rcases await_serve_cases hf op { s with req := req } k with ⟨hnil, -⟩ | ⟨x, rest, hx, hk'⟩
  · exact absurd hnil ha
  · obtain ⟨ok, d, n, l, j, e, he, -⟩ := answer_cases hf x (withAnswers rest (raiseReq op { s with req := req }))
    rw [hk', he] at h
    obtain ⟨hlt, ht, hr⟩ := hk _ _ h
    refine ⟨hu ▸ hlt, ht, ?_⟩
    rw [hr, hu, if_pos hc, show s.answers = x :: rest from hx]
    exact le_rfl

theorem execStart_advances {s t : State} (hu : s.upc = 0) (hi : s.inp.start = true) (h : execStart s = .next t) :
    Advances s t := by
  rw [execStart, if_pos hi] at h
  cases h
  exact advances_of_goesOn hu (goesOn_at upcEncode ⟨rfl, rfl, rfl⟩ (by decide))

theorem execEncode_advances {s t : State} (hu : s.upc = 1) (h : execEncode s = .next t) : Advances s t := by
  obtain ⟨a, -, h⟩ := need_next h
  obtain ⟨pr, -, h⟩ := need_next h
  rw [encodeWith_eq] at h
  cases h
  exact advances_of_goesOn hu (goesOn_at upcOpen ⟨rfl, rfl, rfl⟩ (by decide))

theorem execOpenPort_advances {s t : State} (hu : s.upc = 2) (ha : s.answers ≠ []) (h : execOpenPort s = .next t) :
    Advances s t := by
  obtain ⟨p, -, h⟩ := need_next h
  exact advances_of_await_serve isAnswer_open rfl hu ha h fun u _ h =>
    goesOn_of_ite h (goesOn_at upcCfgGet ⟨rfl, rfl, rfl⟩ (by decide)) (goesOn_at upcHalt ⟨rfl, rfl, rfl⟩ (by decide))

theorem execCfgGet_advances {s t : State} (hu : s.upc = 3) (ha : s.answers ≠ []) (h : execCfgGet s = .next t) :
    Advances s t :=
  advances_of_await_serve isAnswer_getState rfl hu ha h fun u _ h =>
    goesOn_of_ite h (goesOn_at upcCfgSet ⟨rfl, rfl, rfl⟩ (by decide)) (goesOn_raiseError (by decide) _ u)

theorem execCfgSet_advances {s t : State} (hu : s.upc = 4) (ha : s.answers ≠ []) (h : execCfgSet s = .next t) :
    Advances s t := by
  obtain ⟨d, -, h⟩ := need_next h
  obtain ⟨b, -, h⟩ := need_next h
  exact advances_of_await_serve isAnswer_setState rfl hu ha h fun u _ h =>
    goesOn_of_ite h (goesOn_at upcCfgTmo ⟨rfl, rfl, rfl⟩ (by decide)) (goesOn_raiseError (by decide) _ u)

theorem execCfgTmo_advances {s t : State} (hu : s.upc = 5) (ha : s.answers ≠ []) (h : execCfgTmo s = .next t) :
    Advances s t :=
  advances_of_await_serve isAnswer_setTimeouts rfl hu ha h fun u _ h =>
    goesOn_of_ite h (goesOn_at upcSend ⟨rfl, rfl, rfl⟩ (by decide)) (goesOn_raiseError (by decide) _ u)

theorem execSend_advances {s t : State} (hu : s.upc = 6) (ha : s.answers ≠ []) (h : execSend s = .next t) :
    Advances s t := by
  obtain ⟨k, -, h⟩ := needPacket_next h
  exact advances_of_await_serve isAnswer_write rfl hu ha h fun u _ h =>
    goesOn_of_ite h (goesOn_at upcVerify ⟨rfl, rfl, rfl⟩ (by decide)) (goesOn_raiseError (by decide) _ u)

theorem execVerify_advances {s t : State} (hu : s.upc = 7) (h : execVerify s = .next t) : Advances s t := by
  obtain ⟨n, -, h⟩ := need_next h
  split at h
  · obtain ⟨k, -, h⟩ := needPacket_next h
    cases h
    exact advances_of_goesOn hu (goesOn_at upcFinalize ⟨rfl, rfl, rfl⟩ (by decide))
  · cases h
    exact advances_of_goesOn hu (goesOn_at upcFinalize ⟨rfl, rfl, rfl⟩ (by decide))

theorem execFinalize_advances {s t : State} (hu : s.upc = 8) (ha : s.answers ≠ []) (h : execFinalize s = .next t) :
    Advances s t :=
  advances_of_await_serve isAnswer_flush rfl hu ha h fun u _ h => by
    cases h
    exact goesOn_at upcClose ⟨rfl, rfl, rfl⟩ (by decide)

theorem execClose_advances {s t : State} (hu : s.upc = 9) (ha : s.answers ≠ []) (h : execClose s = .next t) :
    Advances s t :=
  advances_of_await_serve isAnswer_close rfl hu ha h fun u _ h => by
    cases h
    exact goesOn_at upcHalt ⟨rfl, rfl, rfl⟩ (by decide)

/-- Short of HALT the micro-operation UPC selects goes forward, if START has its strobe and a transaction its answer. -/
theorem exec_advances {s t : State} {i : Instr} (hf : fetch s = .ok i) (hi : s.upc = 0 → s.inp.start = true)
    (ha : (transactionOf s.upc).isSome = true → s.answers ≠ []) (hne : s.upc ≠ upcHalt) (h : exec i s = .next t) :
    Advances s t := by
  rcases fetch_cases hf with ⟨hu, rfl⟩ | ⟨hu, rfl⟩ | ⟨hu, rfl⟩ | ⟨hu, rfl⟩ | ⟨hu, rfl⟩ | ⟨hu, rfl⟩ | ⟨hu, rfl⟩ | ⟨hu, rfl⟩ |
    ⟨hu, rfl⟩ | ⟨hu, rfl⟩ | ⟨hu, rfl⟩ <;> rw [hu] at ha
  · exact execStart_advances hu (hi hu) h
  · exact execEncode_advances hu h
  · exact execOpenPort_advances hu (ha rfl) h
  · exact execCfgGet_advances hu (ha rfl) h
  · exact execCfgSet_advances hu (ha rfl) h
  · exact execCfgTmo_advances hu (ha rfl) h
  · exact execSend_advances hu (ha rfl) h
  · exact execVerify_advances hu h
  · exact execFinalize_advances hu (ha rfl) h
  · exact execClose_advances hu (ha rfl) h
  · exact absurd hu hne

/-- How many transactions the micro-operations from a UPC code on can issue. -/
def transactionsFrom (c : BitVec 4) : Nat :=
  ((List.range 11).drop c.toNat).countP fun n => (transactionOf (BitVec.ofNat 4 n)).isSome

/-- Going forward leaves fewer transactions to issue, by one at least after a transaction. -/
theorem transactionsFrom_lt :
    ∀ c d : BitVec 4, c.toNat < d.toNat →
      (transactionsFrom d + if (transactionOf c).isSome then 1 else 0) ≤ transactionsFrom c := by
  decide

theorem transactionsFrom_pos :
    ∀ c : BitVec 4, (transactionOf c).isSome = true → 0 < transactionsFrom c := by
  decide

/-- A session that is the sequencer's alone, started or about to start, with an answer at hand for each transaction left. -/
structure OnCourse (s : State) : Prop where
  inv : sessionInv s
  turns : s.turns = []
  start : s.upc = 0 → s.inp.start = true
  answers : transactionsFrom s.upc ≤ s.answers.length

/-- Short of HALT a session on course goes forward and stays on course. -/
theorem OnCourse.advances {s : State} (hs : OnCourse s) (hne : s.upc ≠ upcHalt) :
    ∃ t, step s = .next t ∧ OnCourse t ∧ s.upc.toNat < t.upc.toNat := by
  obtain ⟨hstage, -⟩ := hs.inv
  obtain ⟨i, hf⟩ := fetch_of_stageTable hstage
  obtain ⟨t, ht⟩ := sequencerStep_next_of_sessionInv hs.inv
  have hstep : step s = .next t := (step_of_no_turn hs.turns).trans ht
  have hexec : exec i s = .next t := by rw [← ht, sequencerStep, hf]
  have hanswer : (transactionOf s.upc).isSome = true → s.answers ≠ [] := fun h =>
    List.ne_nil_of_length_pos ((transactionsFrom_pos _ h).trans_le hs.answers)
  have hadv := exec_advances hf hs.start hanswer hne hexec
  have hleft : transactionsFrom t.upc ≤ t.answers.length := by
    have hneeded := transactionsFrom_lt _ _ hadv.upc
    have htaken := hadv.answers
    have hgiven := hs.answers
    omega
  exact ⟨t, hstep,
    { inv := everyStepKeepsTheSessionInvariant s t hs.inv hstep
      turns := hadv.turns.trans hs.turns
      start := fun h => absurd hadv.upc (by simp [h])
      answers := hleft }, hadv.upc⟩

/-- In HALT with no turn listed the machine stays. -/
theorem step_of_halt {s : State} (ht : s.turns = []) (hu : s.upc = upcHalt) : step s = .next s :=
  step_of_code ht .halt rfl (by rw [hu]; rfl)

/-- A run begins with its first step. -/
theorem run_succ_of_step {M : Host.Core} {s t : M.State} (h : M.step s = .next t) (n : Nat) : M.run (n + 1) s = M.run n t := by
  rw [Host.Core.run, h]

/-- A session has no stage beyond HALT. -/
theorem upc_le_of_stageTable {s : State} (h : stageTable s = true) : s.upc.toNat ≤ upcHalt.toNat := by
  obtain ⟨i, hf⟩ := fetch_of_stageTable h
  rcases fetch_cases hf with ⟨hu, -⟩ | ⟨hu, -⟩ | ⟨hu, -⟩ | ⟨hu, -⟩ | ⟨hu, -⟩ | ⟨hu, -⟩ | ⟨hu, -⟩ | ⟨hu, -⟩ | ⟨hu, -⟩ |
    ⟨hu, -⟩ | ⟨hu, -⟩ <;> rw [hu] <;> decide

/-- A session on course reaches HALT in as many steps as UPC is short of it. -/
theorem OnCourse.run_reaches_halt {n : Nat} {s : State} (hs : OnCourse s) (hn : upcHalt.toNat ≤ s.upc.toNat + n) :
    ∃ t, core.run n s = .next t ∧ OnCourse t ∧ t.upc = upcHalt := by
  induction n generalizing s with
  | zero =>
    obtain ⟨hstage, -⟩ := hs.inv
    exact ⟨s, rfl, hs, BitVec.eq_of_toNat_eq (le_antisymm (upc_le_of_stageTable hstage) hn)⟩
  | succ n ih =>
    by_cases hu : s.upc = upcHalt
    · rw [run_succ_of_step (M := core) (step_of_halt hs.turns hu)]
      exact ih hs (by rw [hu]; exact Nat.le_add_right _ _)
    · obtain ⟨t, hstep, ht, hlt⟩ := hs.advances hu
      rw [run_succ_of_step (M := core) hstep]
      exact ih ht (by omega)

/-- DONE and EXIT in HALT. -/
theorem status_of_halt {s : State} (h : statusTable s = true) (hu : s.upc = upcHalt) :
    s.done = true ∧ s.exit = some (exitOf s.err) := by
  simpa [statusTable, hu] using h

/-- Settles O56: each step goes forward with the answers that its transactions need, and HALT is ten codes from IDLE. -/
theorem sessionEndsInTenSteps : Obligations.SessionEndsInTenSteps := by
  intro s hi hu hstart ht ha
  have hs : OnCourse s := ⟨hi, ht, fun _ => hstart, by rw [hu]; exact ha⟩
  obtain ⟨t, hrun, hcourse, hhalt⟩ := hs.run_reaches_halt (n := 10) (by rw [hu]; decide)
  obtain ⟨-, hstatus, -, -⟩ := hcourse.inv
  obtain ⟨hdone, hexit⟩ := status_of_halt hstatus hhalt
  exact ⟨t, hrun, hcourse.inv, hhalt, hdone, hexit⟩

end Sys2Proof.Machine

namespace Sys2Proof.Machine

open Sys2Proof.Safety

/-! ## The checksum in arithmetic modulo 256 (30_encoding.md rule R74, 40_encoder.md rules R107, R109, R113) -/

/-- The checksum as a byte is the reduced integer sum. -/
theorem checksum_eq_ofNat (k : Packet) :
    checksum k = BitVec.ofNat 8 ((k.b1.toNat + k.b2.toNat + k.b3.toNat + k.b4.toNat + k.b5.toNat) % 256) := by
  rw [← checksum_toNat, BitVec.ofNat_toNat, BitVec.setWidth_eq]

/-- The checksum is the sum of the five bytes in the byte's own wrapping addition, whose cancellation laws then apply. -/
theorem checksum_eq_add (k : Packet) : checksum k = k.b1 + k.b2 + k.b3 + k.b4 + k.b5 := by
  apply BitVec.eq_of_toNat_eq
  rw [checksum_toNat]
  simp only [BitVec.toNat_add, Nat.reducePow, Nat.mod_add_mod]

theorem checksum_eq_iff (j k : Packet) :
    checksum j = checksum k ↔
      (j.b1.toNat + j.b2.toNat + j.b3.toNat + j.b4.toNat + j.b5.toNat) % 256 =
        (k.b1.toNat + k.b2.toNat + k.b3.toNat + k.b4.toNat + k.b5.toNat) % 256 := by
  rw [← BitVec.toNat_inj, checksum_toNat, checksum_toNat]

/-- A packet's own last byte is its checksum, so its closed form is too (rule R109). -/
theorem encodePacket_b6_toNat (a p : Byte) : (encodePacket a p).b6.toNat = (a.toNat + p.toNat + 7) % 256 :=
  checksum_encodePacket_toNat a p

/-- Settles O18: in wrapping addition a summand that changes changes the sum, the others being equal. -/
theorem checksumSeesEverySingleChange : Obligations.ChecksumSeesEverySingleChange := by
  intro k v
  refine ⟨?_, ?_, ?_, ?_, ?_, rfl, fun j => checksum_eq_iff j k⟩
  all_goals
    intro hv
    simpa only [checksum_eq_add, ne_eq, BitVec.add_left_inj, BitVec.add_right_inj] using hv

/-! ## The lanes and ENCODE (40_encoder.md rules R100 to R111) -/

/-- With both operands written ENCODE leaves the packet of the data mux. -/
theorem exec_encode_eq {s : State} {a p : Byte} (ha : s.cam = some a) (hp : s.preset = some p) :
    exec .encode s = .next { s with pkt := pktFull (encodePacket a p), pktValid := true, upc := upcOpen } := by
  rw [exec, execEncode, need_of_some ha, need_of_some hp, encodeWith_eq]

/-- The packet of the data mux, byte by byte. -/
theorem pktFull_encodePacket (a p : Byte) :
    pktFull (encodePacket a p) =
      ⟨some syncByte, some a, some cmd1Byte, some cmd2Byte, some data1Byte, some p, some (checksum (encodePacket a p))⟩ := rfl

/-- With bytes 1 to 5 written the checksum lane leaves their packet's checksum, whatever stands in bytes 0 and 6. -/
theorem laneChecksum_eq {s : State} {k : Packet} (h1 : s.pkt.r1 = some k.b1) (h2 : s.pkt.r2 = some k.b2)
    (h3 : s.pkt.r3 = some k.b3) (h4 : s.pkt.r4 = some k.b4) (h5 : s.pkt.r5 = some k.b5) :
    laneChecksum s = .next (putByte 6 (checksum k) s) := by
  rw [laneChecksum, need_of_some h1, need_of_some h2, need_of_some h3, need_of_some h4, need_of_some h5, checksum]

/-- Settles O10: the packet of the data mux, its checksum written as the reduced sum. -/
theorem encodeBuildsThePacket : Obligations.EncodeBuildsThePacket := by
  intro s a p ha hp
  rw [exec_encode_eq ha hp, pktFull_encodePacket, checksum_eq_ofNat]
  rfl

/-- Settles O13: the lane on a written buffer; the corner values by the closed form, the sum of two bytes being at most 510. -/
theorem checksumLaneSumsTheBuffer : Obligations.ChecksumLaneSumsTheBuffer := by
  refine ⟨fun s b1 b2 b3 b4 b5 h1 h2 h3 h4 h5 => ?_, fun a p => ?_⟩
  · have h := laneChecksum_eq (k := ⟨0, b1, b2, b3, b4, b5, 0⟩) h1 h2 h3 h4 h5
    rwa [checksum_eq_ofNat] at h
  · have ha := a.isLt
    have hp := p.isLt
    rw [← BitVec.toNat_inj, ← BitVec.toNat_inj, encodePacket_b6_toNat]
    simp only [BitVec.reduceToNat]
    omega

/-- Settles O14: byte 6 of the packet ENCODE leaves. -/
theorem checksumHasAClosedForm : Obligations.ChecksumHasAClosedForm := fun _ a p ha hp =>
  ⟨_, _, exec_encode_eq ha hp, rfl, encodePacket_b6_toNat a p⟩

/-- Settles O11: each constant lane is one write of its byte. -/
theorem constantLanesWriteTheirByte : Obligations.ConstantLanesWriteTheirByte := fun _ => ⟨rfl, rfl, rfl, rfl⟩

/-- Settles O12: each operand lane reads its register and writes its byte. -/
theorem operandLanesCopyTheirRegister : Obligations.OperandLanesCopyTheirRegister := by
  intro s v
  exact ⟨fun h => need_of_some h _ _, fun h => need_of_some h _ _⟩

/-! ## The packet and the host's integers (40_encoder.md rule R111) -/

/-- A byte does not tell an integer from its residue. -/
theorem byte_ofInt_emod (n : Int) : BitVec.ofInt 8 (n % 256) = BitVec.ofInt 8 n := by
  apply BitVec.eq_of_toInt_eq
  rw [BitVec.toInt_ofInt, BitVec.toInt_ofInt]
  exact Int.emod_bmod n 256

/-- START reads an integer on a host input as its low byte, whatever IN_W is. -/
theorem byte_ofInt_of_input {v : HostInt} {n : Int} (h : v = BitVec.ofInt Config.inW n) :
    BitVec.ofInt 8 v.toInt = BitVec.ofInt 8 n := by
  rw [h, ← trunc8_eq_ofInt_toInt, trunc8_ofInt]

/-- START and then ENCODE: the packet of the two input integers. -/
theorem start_encode_pkt {s : State} {a q : Int} (hs : s.inp.start = true)
    (ha : s.inp.camIn = BitVec.ofInt Config.inW a) (hq : s.inp.presetIn = BitVec.ofInt Config.inW q) :
    ∃ t u, exec .start s = .next t ∧ exec .encode t = .next u ∧
      u.pkt = pktFull (encodePacket (BitVec.ofInt 8 a) (BitVec.ofInt 8 q)) := by
  refine ⟨_, _, startSamplesAndTruncates s hs, exec_encode_eq rfl rfl, ?_⟩
  rw [byte_ofInt_of_input ha, byte_ofInt_of_input hq]

/-- Settles O17: both runs leave the packet of their input integers, which as bytes are those of their residues. -/
theorem packetDependsOnInputsModulo256 : Obligations.PacketDependsOnInputsModulo256 := by
  intro s s' a q hs hs' ha hq ha' hq'
  obtain ⟨t, u, hstart, hencode, hpkt⟩ := start_encode_pkt hs ha hq
  obtain ⟨t', u', hstart', hencode', hpkt'⟩ := start_encode_pkt hs' ha' hq'
  rw [← byte_ofInt_emod a, ← byte_ofInt_emod q] at hpkt
  exact ⟨t, u, t', u', hstart, hencode, hstart', hencode', hpkt.trans hpkt'.symm, hpkt⟩

/-! ## Who writes the packet (40_encoder.md rule R115, 20_memory.md rule R66) -/

/-- PKT[0..6] and PKT_VALID are the same in both states. -/
def SamePacket (s t : State) : Prop := t.pkt = s.pkt ∧ t.pktValid = s.pktValid

theorem samePacket_of_sameRegisters {s t : State} (h : sameRegisters s t) : SamePacket s t := by
  obtain ⟨-, -, hk, -, -, -, -, -, -, -, hv, -⟩ := h
  exact ⟨hk, hv⟩

theorem samePacket_raiseError (e : Err) (s : State) : SamePacket s (raiseError e s) := by
  unfold raiseError
  split <;> exact ⟨rfl, rfl⟩

theorem samePacket_serve {f : DevChoice → State → State} (hf : IsAnswer f) (op : BitVec 3) (s : State) :
    SamePacket s (serve op f s) := samePacket_of_sameRegisters (serve_sameRegisters hf op s).1

/-- A micro-operation with a transaction, its payload on the wires, spares the packet if what follows the answer does. -/
theorem samePacket_await_serve {s t : State} {f : DevChoice → State → State} (hf : IsAnswer f) {op : BitVec 3} {req : DevReq}
    {k : State → Result} (h : await (serve op f { s with req := req }) k = .next t)
    (hk : ∀ v w, k v = .next w → SamePacket v w) : SamePacket s t := by
  obtain ⟨hpkt, hvalid⟩ := samePacket_serve hf op { s with req := req }
  cases hw : (serve op f { s with req := req }).rsp.valid with
  | false =>
    rw [await_waits hw] at h
    cases h
    exact ⟨hpkt, hvalid⟩
  | true =>
    rw [await_answered hw] at h
    obtain ⟨hpkt', hvalid'⟩ := hk _ _ h
    exact ⟨hpkt'.trans hpkt, hvalid'.trans hvalid⟩

/-- A branch on the answer spares the packet if both ends do. -/
theorem samePacket_of_ite {s t u v : State} {b : Bool} (h : (if b then .next u else .next v : Result) = .next t)
    (hu : SamePacket s u) (hv : SamePacket s v) : SamePacket s t := by
  cases b <;> cases h <;> assumption

theorem execVerify_samePacket {s t : State} (h : execVerify s = .next t) : SamePacket s t := by
  obtain ⟨n, -, h⟩ := need_next h
  split at h
  · obtain ⟨k, -, h⟩ := needPacket_next h
    cases h
    exact ⟨rfl, rfl⟩
  · cases h
    exact ⟨rfl, rfl⟩

/-- Every micro-operation but ENCODE spares the packet. -/
theorem exec_samePacket_of_upc4 {i : Instr} {s t : State} (hf : formatOf i = .upc4) (hi : i ≠ .encode)
    (h : exec i s = .next t) : SamePacket s t := by
  cases i with
  | start => exact samePacket_of_ite h ⟨rfl, rfl⟩ ⟨rfl, rfl⟩
  | encode => exact absurd rfl hi
  | openPort =>
    obtain ⟨p, -, h⟩ := need_next h
    exact samePacket_await_serve isAnswer_open h fun _ _ hw => samePacket_of_ite hw ⟨rfl, rfl⟩ ⟨rfl, rfl⟩
  | cfgGet =>
    rw [exec, execCfgGet] at h
    exact samePacket_await_serve isAnswer_getState h
      fun v _ hw => samePacket_of_ite hw ⟨rfl, rfl⟩ (samePacket_raiseError _ v)
  | cfgSet =>
    obtain ⟨d, -, h⟩ := need_next h
    obtain ⟨b, -, h⟩ := need_next h
    exact samePacket_await_serve isAnswer_setState h
      fun v _ hw => samePacket_of_ite hw ⟨rfl, rfl⟩ (samePacket_raiseError _ v)
  | cfgTmo =>
    rw [exec, execCfgTmo] at h
    exact samePacket_await_serve isAnswer_setTimeouts h
      fun v _ hw => samePacket_of_ite hw ⟨rfl, rfl⟩ (samePacket_raiseError _ v)
  | send =>
    rw [exec, execSend] at h
    obtain ⟨k, -, h⟩ := needPacket_next h
    exact samePacket_await_serve isAnswer_write h
      fun v _ hw => samePacket_of_ite hw ⟨rfl, rfl⟩ (samePacket_raiseError _ v)
  | verify => exact execVerify_samePacket h
  | finalize =>
    rw [exec, execFinalize] at h
    refine samePacket_await_serve isAnswer_flush h fun v w hw => ?_
    cases hw
    exact ⟨rfl, rfl⟩
  | close =>
    rw [exec, execClose] at h
    refine samePacket_await_serve isAnswer_close h fun v w hw => ?_
    cases hw
    exact ⟨rfl, rfl⟩
  | halt => cases h; exact ⟨rfl, rfl⟩
  | _ => cases hf

/-- Every transaction spares the packet. -/
theorem exec_samePacket_of_devop3 {i : Instr} {s t : State} (hf : formatOf i = .devop3) (h : exec i s = .next t) :
    SamePacket s t := by
  cases i with
  | devOpen => cases h; exact samePacket_serve isAnswer_open 0 s
  | devGetState => cases h; exact samePacket_serve isAnswer_getState 1 s
  | devSetState => cases h; exact samePacket_serve isAnswer_setState 2 s
  | devSetTimeouts => cases h; exact samePacket_serve isAnswer_setTimeouts 3 s
  | devWrite => cases h; exact samePacket_serve isAnswer_write 4 s
  | devFlush => cases h; exact samePacket_serve isAnswer_flush 5 s
  | devClose => cases h; exact samePacket_serve isAnswer_close 6 s
  | _ => cases hf

/-- Settles O19: the two formats, each by the case split over its instructions. -/
theorem packetIsImmutableOnceBuilt : Obligations.PacketIsImmutableOnceBuilt := by
  rintro i s t (⟨hf, hi⟩ | hf) h
  · exact exec_samePacket_of_upc4 hf hi h
  · exact exec_samePacket_of_devop3 hf h

end Sys2Proof.Machine

namespace Sys2Proof.Machine

open Sys2Proof.Safety

/-! ## The micro-operations of the Transport Sender with the answer at hand (41_transport.md rules R121 to R129) -/

/-- With an answer at hand a micro-operation goes on by it. -/
theorem await_serve_of_after {f : DevChoice → State → State} {op : BitVec 3} {s : State} {c : DevChoice}
    {rest : List DevChoice} {ok : Bool} {d : Dcb} {n : Count} {l : List (Nat × Device)} {h : Option HostInt} {e : Event}
    (ha : s.answers = c :: rest)
    (hf : f c (withAnswers rest (raiseReq op s)) = after (withAnswers rest (raiseReq op s)) ok d n l h e) (k : State → Result) :
    await (serve op f s) k = k (went s op rest ok d n l h e) := by
  rw [serve_cons ha, hf]
  rfl

/-- The direct halt after a transaction: its entry and the message stand in EV one after the other (rule R121). -/
theorem haltWith_went (r : Err) (s : State) (op : BitVec 3) (rest : List DevChoice) (ok : Bool) (d : Dcb) (n : Count)
    (l : List (Nat × Device)) (h : Option HostInt) (e : Event) :
    haltWith r (went s op rest ok d n l h e) =
      { went s op rest ok d n l h e with
        err := r, conn := .closed, exit := some (exitOf r), done := true, upc := upcHalt,
        ev := s.ev ++ [e, .diag (.error r)], diagPort := some (.error r) } := by
  simp [haltWith, emit, went]

/-- The abort after a transaction, with the connection held (rule R176). -/
theorem raiseError_went {r : Err} {s : State} {op : BitVec 3} {rest : List DevChoice} {ok : Bool} {d : Dcb} {n : Count}
    {l : List (Nat × Device)} {h : Option HostInt} {e : Event} (hh : s.handle = true) :
    raiseError r (went s op rest ok d n l h e) =
      { went s op rest ok d n l h e with
        err := r, upc := upcClose, ev := s.ev ++ [e, .diag (.error r)], diagPort := some (.error r) } := by
  rw [raiseError_held (s := went s op rest ok d n l h e) hh]
  simp [emit, went]

/-- A port that is missing, or that another agent holds, cannot be opened (rule R186). -/
theorem canOpen_eq_false {s : State}
    (h : deviceAt s s.req.port = none ∨ ∃ d, deviceAt s s.req.port = some d ∧ d.heldByOther = true) : canOpen s = false := by
  rw [Bool.eq_false_iff, Ne, canOpen_iff]
  rintro ⟨-, v, hv, hfree⟩
  rcases h with h | ⟨d, hd, hheld⟩
  · simp [h] at hv
  · obtain rfl := Option.some.inj (hd.symm.trans hv)
    simp [hheld] at hfree

theorem answerOpen_after_ok {c : DevChoice} {s : State} (hc : c.ok = true) (h : canOpen s = true) :
    answerOpen c s = after s true s.rsp.dcb s.rsp.count s.devs (some s.req.port) (.openPort s.req.port true) :=
  answerOpen_ok hc h

theorem answerOpen_after_fail {c : DevChoice} {s : State} (h : (c.ok && canOpen s) = false) :
    answerOpen c s = after s false s.rsp.dcb s.rsp.count s.devs s.link (.openPort s.req.port false) :=
  answerOpen_fail h

/-- Settles O20: the port can be opened in the first clause and not in the second, whose halt follows the answer at once. -/
theorem openFollowsTheAnswer : Obligations.OpenFollowsTheAnswer := by
  intro s p c rest hp ha
  refine ⟨fun hc hl hd => ?_, fun h => ?_⟩ <;> rw [exec, execOpenPort, need_of_some hp, devOpen]
  · have hcan : canOpen (withAnswers rest (raiseReq 0 (putPort p s))) = true := (canOpen_iff _).2 ⟨hl, hd⟩
    rw [await_serve_of_after (s := putPort p s) ha (answerOpen_after_ok hc hcan)]
    rfl
  · have hfail : (c.ok && canOpen (withAnswers rest (raiseReq 0 (putPort p s)))) = false := by
      rcases h with hc | hd
      · rw [hc, Bool.false_and]
      · rw [canOpen_eq_false hd, Bool.and_false]
    rw [await_serve_of_after (s := putPort p s) ha (answerOpen_after_fail hfail), haltWith_went]
    rfl

/-- Settles O21: the answer of GetState, and on Fail the abort after it. -/
theorem cfgGetFollowsTheAnswer : Obligations.CfgGetFollowsTheAnswer := by
  intro s p d c rest hh hl hd ha
  refine ⟨fun hc => ?_, fun hc => ?_⟩ <;> rw [exec, execCfgGet, devGetState]
  · have hv : linked s = some d := (linked_some hl).trans hd
    rw [await_serve_of_after ha (answerGetState_ok hc hv)]
    rfl
  · rw [await_serve_of_after ha (answerGetState_fail (.inl hc)), raiseError_went hh]
    rfl

/-! ### The answers that change the device of the connection, with the change at its port written out -/

section
variable {c : DevChoice} {s : State} {p : HostInt} (hl : s.link = some p)
include hl

theorem answerSetState_after_ok {v : Device} (hd : deviceAt s p = some v) (hc : c.ok = true) :
    answerSetState c s =
      after s true s.rsp.dcb s.rsp.count (devModify p.toNat (fun x => { x with dcb := s.req.dcb }) s.devs) s.link
        (.setState s.req.dcb true) := by
  rw [answerSetState_ok hc ((linked_some hl).trans hd), modifyLinked_some hl]
  rfl

theorem answerSetState_after_fail (hc : c.ok = false) :
    answerSetState c s =
      after s false s.rsp.dcb s.rsp.count
        (devModify p.toNat (fun x => { x with dcb := mixDcb c.dcbChanged x.dcb s.req.dcb }) s.devs) s.link
        (.setState s.req.dcb false) := by
  rw [answerSetState_fail (by rw [hc, Bool.false_and]), modifyLinked_some hl]
  rfl

theorem answerSetTimeouts_after_ok {v : Device} (hd : deviceAt s p = some v) (hc : c.ok = true) :
    answerSetTimeouts c s =
      after s true s.rsp.dcb s.rsp.count (devModify p.toNat (fun x => { x with tmo := s.req.tmo }) s.devs) s.link
        (.setTimeouts s.req.tmo true) := by
  rw [answerSetTimeouts_ok hc ((linked_some hl).trans hd), modifyLinked_some hl]
  rfl

theorem answerSetTimeouts_after_fail (hc : c.ok = false) :
    answerSetTimeouts c s =
      after s false s.rsp.dcb s.rsp.count (devModify p.toNat (fun x => { x with tmo := c.tmoAfter.getD x.tmo }) s.devs) s.link
        (.setTimeouts s.req.tmo false) := by
  rw [answerSetTimeouts_fail (by rw [hc, Bool.false_and]), modifyLinked_some hl]
  rfl

theorem answerWrite_after_ok {v : Device} {k : Packet} (hk : s.req.data = packetWord k) (hd : deviceAt s p = some v)
    (hc : c.ok = true) :
    answerWrite c s =
      after s true s.rsp.dcb c.count
        (devModify p.toNat (fun x => { x with txq := x.txq ++ (packetBytes k).take c.count.toNat }) s.devs) s.link
        (.write k (some c.count)) := by
  rw [answerWrite_ok hc ((linked_some hl).trans hd), queueBytes, modifyLinked_some hl, hk, packetOfWord_packetWord]
  rfl

theorem answerWrite_after_fail {k : Packet} (hk : s.req.data = packetWord k) (hc : c.ok = false) :
    answerWrite c s =
      after s false s.rsp.dcb s.rsp.count
        (devModify p.toNat (fun x => { x with txq := x.txq ++ (packetBytes k).take c.taken.val }) s.devs) s.link
        (.write k none) := by
  rw [answerWrite_fail (by rw [hc, Bool.false_and]), queueBytes, modifyLinked_some hl, hk, packetOfWord_packetWord]
  rfl

end

/-- Settles O22: the record on the wires is that of rule R124, and the answer of SetState changes the device of the connection. -/
theorem cfgSetFollowsTheAnswer : Obligations.CfgSetFollowsTheAnswer := by
  intro s p b d d' v c rest hh hl hd ha hdcb hb hd'
  obtain rfl : d' = lineSettings b d := hd'
  refine ⟨fun hc => ?_, fun hc => ?_⟩ <;> rw [exec, execCfgSet, need_of_some hdcb, need_of_some hb, devSetState]
  · rw [await_serve_of_after (s := putDcb (lineSettings b d) s) ha (answerSetState_after_ok hl hd hc)]
    rfl
  · rw [await_serve_of_after (s := putDcb (lineSettings b d) s) ha (answerSetState_after_fail hl hc),
      raiseError_went (s := putDcb (lineSettings b d) s) hh]
    rfl

/-- Settles O23: the record on the wires is that of rule R32, and the answer of SetTimeouts changes the device of the connection. -/
theorem cfgTmoFollowsTheAnswer : Obligations.CfgTmoFollowsTheAnswer := by
  intro s p v m c rest hh hl hd ha hm
  obtain rfl : m = tmoCfg := hm
  refine ⟨fun hc => ?_, fun hc => ?_⟩ <;> rw [exec, execCfgTmo, devSetTimeouts]
  · rw [await_serve_of_after (s := putTmo tmoCfg s) ha (answerSetTimeouts_after_ok hl hd hc)]
    rfl
  · rw [await_serve_of_after (s := putTmo tmoCfg s) ha (answerSetTimeouts_after_fail hl hc),
      raiseError_went (s := putTmo tmoCfg s) hh]
    rfl

/-- Settles O24: the bytes on the wires are the packet's, and the answer of Write queues the first of them. -/
theorem sendFollowsTheAnswer : Obligations.SendFollowsTheAnswer := by
  intro s p v k c rest hh hl hd ha hk
  refine ⟨fun hc => ?_, fun hc => ?_⟩ <;> rw [exec, execSend, needPacket_of_full hk, devWrite]
  · have hx := answerWrite_after_ok (s := withAnswers rest (raiseReq 4 (putData k s))) hl rfl hd hc
    rw [await_serve_of_after (s := putData k s) ha hx]
    rfl
  · have hx := answerWrite_after_fail (s := withAnswers rest (raiseReq 4 (putData k s))) hl rfl hc
    rw [await_serve_of_after (s := putData k s) ha hx, raiseError_went (s := putData k s) hh]
    rfl

/-- VERIFY's test (rule R135). -/
theorem fullCount_iff (n : Count) : fullCount n = true ↔ n.toNat = 7 := beq_iff_eq

/-- Settles O25: the two branches of the test of rule R135. -/
theorem verifyComparesWithSeven : Obligations.VerifyComparesWithSeven := by
  intro s n hn
  refine ⟨fun k h7 hk => ?_, fun h7 => ?_⟩ <;> rw [exec, execVerify, need_of_some hn]
  · rw [if_pos ((fullCount_iff n).2 h7), needPacket_of_full hk]
    rfl
  · rw [if_neg fun h => h7 ((fullCount_iff n).1 h)]
    rfl

/-- What becomes of the linked device depends on the table of devices and the hold only. -/
theorem modifyLinked_devs_congr (f : Device → Device) {s t : State} (hd : t.devs = s.devs) (hl : t.link = s.link) :
    (modifyLinked f t).devs = (modifyLinked f s).devs := by
  unfold modifyLinked
  rw [hl]
  split
  · exact hd
  · rw [modifyAt_devs, modifyAt_devs, hd]

theorem answerFlush_eq_after (c : DevChoice) (s : State) :
    answerFlush c s =
      after s c.ok s.rsp.dcb s.rsp.count
        (modifyLinked (fun x => if c.drained then { x with line := x.line ++ x.txq, txq := [] } else x) s).devs s.link .flush := by
  rw [answerFlush, modifyLinked_eq]
  rfl

theorem answerClose_eq_after (c : DevChoice) (s : State) :
    answerClose c s =
      after s c.ok s.rsp.dcb s.rsp.count
        (modifyLinked (fun x => { x with line := x.line ++ keepSent c.sent x.txq, txq := [] }) s).devs none .close := by
  rw [answerClose, modifyLinked_eq]
  rfl

/-- Settles O26: the Done of Flush, which the level of dev_rsp_ok does not touch. -/
theorem finalizeFlushesAndGoesOn : Obligations.FinalizeFlushesAndGoesOn := by
  intro s c rest ha
  rw [exec, execFinalize, devFlush, await_serve_of_after ha (answerFlush_eq_after c _),
    modifyLinked_devs_congr (s := s) (t := withAnswers rest (raiseReq 5 s)) _ rfl rfl]
  rfl

/-- EXIT spelled out over the errors (rule R155). -/
theorem exitOf_eq_decide (e : Err) :
    exitOf e = decide (e = .argumentError ∨ e = .portUnavailable ∨ e = .configFailed ∨ e = .writeCallFailed) := by
  cases e <;> rfl

/-- Settles O27: the Done of Close, and the exit status by the error. -/
theorem closeReleasesAndReports : Obligations.CloseReleasesAndReports := by
  intro s c rest ha
  rw [exec, execClose, devClose, await_serve_of_after ha (answerClose_eq_after c _),
    modifyLinked_devs_congr (s := s) (t := withAnswers rest (raiseReq 6 s)) _ rfl rfl, ← exitOf_eq_decide]
  rfl

end Sys2Proof.Machine

namespace Sys2Proof.Machine

open Sys2Proof.Safety

/-! ## START without the strobe and HALT (rules R120, R130), and the timeout bound (rule R136) -/

/-- Settles O8: the strobe down is the second branch of START. -/
theorem idleAndHaltStay : Obligations.IdleAndHaltStay := by
  refine fun s => ⟨fun hs => ?_, rfl⟩
  rw [exec, execStart, hs]
  rfl

/-- Settles O60, by the fields of the constant record. -/
theorem timeoutBoundIsFiftyPlusTenPerByte : Obligations.TimeoutBoundIsFiftyPlusTenPerByte := fun _ => ⟨rfl, rfl, rfl, rfl⟩

/-! ## HANDLE is cleared by CLOSE only (rule R129) -/

/-- From `s` to `t` HANDLE is not cleared. -/
def KeepsHandle (s t : State) : Prop := s.handle = true → t.handle = true

theorem keepsHandle_of_eq {s t : State} (h : t.handle = s.handle) : KeepsHandle s t := h.trans

theorem keepsHandle_raiseError (e : Err) (s : State) : KeepsHandle s (raiseError e s) := by
  intro hs
  rw [raiseError_held hs]
  exact hs

theorem keepsHandle_serve {f : DevChoice → State → State} (hf : IsAnswer f) (op : BitVec 3) (s : State) :
    KeepsHandle s (serve op f s) := by
  obtain ⟨⟨-, -, -, -, -, -, -, -, -, hh, -⟩, -⟩ := serve_sameRegisters hf op s
  exact keepsHandle_of_eq hh

/-- A branch that does not clear HANDLE at either end. -/
theorem keepsHandle_of_ite {s t u v : State} {b : Bool} (h : (if b then .next u else .next v : Result) = .next t)
    (hu : KeepsHandle s u) (hv : KeepsHandle s v) : KeepsHandle s t := by
  cases b <;> cases h <;> assumption

/-- A micro-operation with a transaction, its payload on the wires, does not clear HANDLE if what follows the answer does not. -/
theorem keepsHandle_await_serve {s t : State} {f : DevChoice → State → State} (hf : IsAnswer f) {op : BitVec 3} {req : DevReq}
    {k : State → Result} (h : await (serve op f { s with req := req }) k = .next t)
    (hk : ∀ v w, k v = .next w → KeepsHandle v w) : KeepsHandle s t := by
  intro hs
  have hserve := keepsHandle_serve hf op { s with req := req } hs
  unfold await at h
  split at h
  · exact hk _ _ h hserve
  · cases h
    exact hserve

/-- The shape of the three configuration calls and the write: a transaction, and then either registers other than HANDLE are
written or an error is raised. -/
theorem keepsHandle_of_transaction {s t : State} {f : DevChoice → State → State} (hf : IsAnswer f) {op : BitVec 3}
    {req : DevReq} {g : State → State} {e : Err}
    (h : await (serve op f { s with req := req }) (fun u => if u.rsp.ok then .next (g u) else .next (raiseError e u)) = .next t)
    (hg : ∀ u, (g u).handle = u.handle) : KeepsHandle s t :=
  keepsHandle_await_serve hf h fun u _ hw => keepsHandle_of_ite hw (keepsHandle_of_eq (hg u)) (keepsHandle_raiseError e u)

theorem keepsHandle_encodeWith {s t : State} {a p : Byte} (h : encodeWith a p s = .next t) : KeepsHandle s t := by
  rw [encodeWith_eq] at h
  cases h
  exact keepsHandle_of_eq rfl

/-- A register read does not clear HANDLE if what goes on with the value does not. -/
theorem keepsHandle_need {α : Type} {r : Option α} {n : RegName} {k : α → Result} {s t : State} (h : need r n k = .next t)
    (hk : ∀ v, k v = .next t → KeepsHandle s t) : KeepsHandle s t := by
  obtain ⟨v, -, h⟩ := need_next h
  exact hk v h

/-- A lane's write. -/
theorem keepsHandle_putByte {s t : State} {i : Fin 7} {v : Byte} (h : (.next (putByte i v s) : Result) = .next t) :
    KeepsHandle s t := by
  cases h
  exact keepsHandle_of_eq rfl

theorem execVerify_keepsHandle {s t : State} (h : execVerify s = .next t) : KeepsHandle s t := by
  obtain ⟨n, -, h⟩ := need_next h
  split at h
  · obtain ⟨k, -, h⟩ := needPacket_next h
    cases h
    exact keepsHandle_of_eq rfl
  · cases h
    exact keepsHandle_of_eq rfl

/-- No instruction but CLOSE clears HANDLE. -/
theorem exec_keepsHandle {i : Instr} {s t : State} (hi : i ≠ .close) (h : exec i s = .next t) : KeepsHandle s t := by
  cases i with
  | close => exact absurd rfl hi
  | start => exact keepsHandle_of_ite h (keepsHandle_of_eq rfl) (keepsHandle_of_eq rfl)
  | openPort =>
    obtain ⟨p, -, h⟩ := need_next h
    exact keepsHandle_await_serve isAnswer_open h fun _ _ hw => keepsHandle_of_ite hw (fun _ => rfl) (keepsHandle_of_eq rfl)
  | cfgGet =>
    rw [exec, execCfgGet] at h
    exact keepsHandle_of_transaction isAnswer_getState h fun _ => rfl
  | cfgSet =>
    obtain ⟨d, -, h⟩ := need_next h
    obtain ⟨b, -, h⟩ := need_next h
    exact keepsHandle_of_transaction isAnswer_setState h fun _ => rfl
  | cfgTmo =>
    rw [exec, execCfgTmo] at h
    exact keepsHandle_of_transaction isAnswer_setTimeouts h fun _ => rfl
  | send =>
    rw [exec, execSend] at h
    obtain ⟨k, -, h⟩ := needPacket_next h
    exact keepsHandle_of_transaction isAnswer_write h fun _ => rfl
  | verify => exact execVerify_keepsHandle h
  | finalize =>
    rw [exec, execFinalize] at h
    refine keepsHandle_await_serve isAnswer_flush h fun v w hw => ?_
    cases hw
    exact keepsHandle_of_eq rfl
  | halt => cases h; exact keepsHandle_of_eq rfl
  | callPreset a p c =>
    rw [exec, execCallPreset] at h
    split at h
    · exact keepsHandle_encodeWith h
    · cases h
  | encode =>
    rw [exec, execEncode] at h
    exact keepsHandle_need h fun _ h => keepsHandle_need h fun _ h => keepsHandle_encodeWith h
  | laneSync => exact keepsHandle_putByte h
  | laneCmd1 => exact keepsHandle_putByte h
  | laneCmd2 => exact keepsHandle_putByte h
  | laneData1 => exact keepsHandle_putByte h
  | laneAddr => exact keepsHandle_need h fun _ h => keepsHandle_putByte h
  | laneData2 => exact keepsHandle_need h fun _ h => keepsHandle_putByte h
  | laneChk =>
    exact keepsHandle_need h fun _ h => keepsHandle_need h fun _ h => keepsHandle_need h fun _ h => keepsHandle_need h fun _ h =>
      keepsHandle_need h fun _ h => keepsHandle_putByte h
  | devOpen => cases h; exact keepsHandle_serve isAnswer_open 0 s
  | devGetState => cases h; exact keepsHandle_serve isAnswer_getState 1 s
  | devSetState => cases h; exact keepsHandle_serve isAnswer_setState 2 s
  | devSetTimeouts => cases h; exact keepsHandle_serve isAnswer_setTimeouts 3 s
  | devWrite => cases h; exact keepsHandle_serve isAnswer_write 4 s
  | devFlush => cases h; exact keepsHandle_serve isAnswer_flush 5 s
  | devClose => cases h; exact keepsHandle_serve isAnswer_close 6 s

/-- Settles O28: an instruction that clears HANDLE is none of those that keep it. -/
theorem onlyCloseClearsHandle : Obligations.OnlyCloseClearsHandle := by
  intro i s t h hs ht
  by_contra hi
  simpa [ht] using exec_keepsHandle hi h hs

end Sys2Proof.Machine

namespace Sys2Proof.Machine

open Sys2Proof.Safety

/-! ## The event history of a session (20_memory.md rule R62, 41_transport.md rules R133, R134, R137)

Up to the Write a history is a beginning of the configuration's; from then on, and on every abort, it is a beginning of the history
of a session that has reached HALT, of which there are six kinds. -/

/-- The history of a session in HALT: Open failed, or one of the paths through CLOSE. -/
def Complete (a pr : Byte) (p b : HostInt) (l : List Event) : Prop :=
  l = [.openPort p false, .diag (.error .portUnavailable)] ∨ ∃ d n e m, Attempt a pr p b d n e m ∧ l = m ++ [.close]

/-- A write answered with a count leads to a complete history. -/
theorem complete_written (a pr : Byte) (p b : HostInt) (d : Dcb) (n : Count) :
    Complete a pr p b
      (configured p d b ++ [.write (encodePacket a pr) (some n), .diag (verdict (encodePacket a pr) n), .flush] ++ [.close]) :=
  .inr ⟨_, _, _, _, .written d n, rfl⟩

/-- The history is a beginning of the configuration's, or of a complete one with the session's CAM and PRESET. -/
theorem history_prefix {s : State} (hi : history s) :
    (∃ p d b, s.ev <+: configured p d b) ∨
      ∃ a pr p b l, s.cam = some a ∧ s.preset = some pr ∧ Complete a pr p b l ∧ s.ev <+: l := by
  unfold history at hi
  split at hi
  iterate 3 exact .inl ⟨0, Dcb.idle, 0, by rw [hi]; exact List.nil_prefix⟩
  · obtain ⟨p, -, hev⟩ := hi
    exact .inl ⟨p, Dcb.idle, 0, by rw [hev]; simp [configured]⟩
  · obtain ⟨p, d, -, -, hev⟩ := hi
    exact .inl ⟨p, d, 0, by rw [hev]; simp [configured]⟩
  · obtain ⟨p, d, b, -, -, -, hev⟩ := hi
    exact .inl ⟨p, d, b, by rw [hev]; simp [configured]⟩
  · obtain ⟨p, d, b, -, -, -, hev⟩ := hi
    exact .inl ⟨p, d, b, by rw [hev]⟩
  · obtain ⟨a, pr, p, d, b, n, ha, hpr, -, -, -, -, hev⟩ := hi
    exact .inr ⟨a, pr, p, b, _, ha, hpr, complete_written a pr p b d n, by rw [hev]; simp⟩
  · obtain ⟨a, pr, p, d, b, n, ha, hpr, -, -, -, -, -, hev⟩ := hi
    exact .inr ⟨a, pr, p, b, _, ha, hpr, complete_written a pr p b d n, by rw [hev]; simp⟩
  · obtain ⟨a, pr, p, b, ha, hpr, -, -, hm⟩ := hi
    exact .inr ⟨a, pr, p, b, _, ha, hpr, .inr ⟨_, _, _, _, hm, rfl⟩, List.prefix_append _ _⟩
  · obtain ⟨a, pr, p, b, ha, hpr, -, -, ⟨-, -, -, hev⟩ | ⟨m, hm, hev⟩⟩ := hi
    · exact .inr ⟨a, pr, p, b, _, ha, hpr, .inl hev, List.prefix_rfl⟩
    · exact .inr ⟨a, pr, p, b, _, ha, hpr, .inr ⟨_, _, _, m, hm, hev⟩, List.prefix_rfl⟩
  · exact hi.elim

/-! ### Order, failures and messages -/

/-- Transaction codes in program order up to some point, or up to some point before Close and then Close. -/
def InOrder (c : List Nat) : Prop := c <+: List.range 7 ∨ ∃ k, k ≤ 6 ∧ c = List.range k ++ [6]

theorem range_prefix_range {k n : Nat} (h : k ≤ n) : List.range k <+: List.range n := by
  rw [← Nat.min_eq_left h, ← List.take_range]
  exact List.take_prefix _ _

theorem InOrder.of_prefix {c m : List Nat} (hm : InOrder m) (h : c <+: m) : InOrder c := by
  rcases hm with hm | ⟨k, hk, rfl⟩
  · exact .inl (h.trans hm)
  · rcases List.prefix_concat_iff.1 h with h | h
    · exact .inr ⟨k, hk, h⟩
    · exact .inl (h.trans (range_prefix_range (by omega)))

theorem InOrder.exists_range {c : List Nat} (hc : InOrder c) :
    ∃ k, k ≤ 7 ∧ (c = List.range k ∨ c = List.range k ++ [6]) := by
  rcases hc with hc | ⟨k, hk, rfl⟩
  · exact ⟨min c.length 7, Nat.min_le_right _ _, .inl (by rw [← List.take_range]; exact List.prefix_iff_eq_take.1 hc)⟩
  · exact ⟨k, by omega, .inr rfl⟩

theorem InOrder.nodup {c : List Nat} (hc : InOrder c) : c.Nodup := by
  rcases hc with hc | ⟨k, hk, rfl⟩
  · exact List.nodup_range.sublist hc.sublist
  · rw [← List.concat_eq_append, List.nodup_concat]
    exact ⟨by simp; omega, List.nodup_range⟩

/-- A history whose transactions are in order, with no transaction but Close after a failed one, and with two messages at most. -/
structure Orderly (l : List Event) : Prop where
  order : InOrder (txCodes l)
  failures : l.Pairwise fun e x => failed e = true → txCode x = none ∨ txCode x = some 6
  messages : (messages l).length ≤ 2

/-- A beginning of an orderly history is orderly. -/
theorem Orderly.of_prefix {l m : List Event} (hm : Orderly m) (h : l <+: m) : Orderly l where
  order := hm.order.of_prefix (h.filterMap _)
  failures := hm.failures.sublist h.sublist
  messages := (h.sublist.filterMap _).length_le.trans hm.messages

/-- Each kind of complete history is orderly. -/
theorem orderly_of_complete {a pr : Byte} {p b : HostInt} {l : List Event} (h : Complete a pr p b l) : Orderly l := by
  rcases h with rfl | ⟨d, n, e, m, hm, rfl⟩
  · exact ⟨.inl (range_prefix_range (k := 1) (by decide)), by simp [txCode], by simp [messages]⟩
  · cases hm with
    | getFailed => exact ⟨.inr ⟨2, by decide, rfl⟩, by simp [failed, txCode], by simp [messages]⟩
    | setFailed => exact ⟨.inr ⟨3, by decide, rfl⟩, by simp [failed, txCode], by simp [messages]⟩
    | timeoutsFailed => exact ⟨.inr ⟨4, by decide, rfl⟩, by simp [failed, txCode], by simp [messages]⟩
    | writeFailed => exact ⟨.inr ⟨5, by decide, rfl⟩, by simp [configured, failed, txCode], by simp [configured, messages]⟩
    | written => exact ⟨.inr ⟨6, by decide, rfl⟩, by simp [configured, failed, txCode], by simp [configured, messages]⟩

/-- The history of a session is orderly. -/
theorem orderly_of_history {s : State} (hi : history s) : Orderly s.ev := by
  rcases history_prefix hi with ⟨p, d, b, h⟩ | ⟨a, pr, p, b, l, -, -, hl, h⟩
  · exact (orderly_of_complete (complete_written 0 0 p b d 0)).of_prefix (h.trans (by simp))
  · exact (orderly_of_complete hl).of_prefix h

/-- After a failed transaction of an orderly history there is at most the Close. -/
theorem Orderly.txCodes_after_failed {l r : List Event} {e : Event} (hl : Orderly (l ++ e :: r)) (he : failed e = true) :
    txCodes r = [] ∨ txCodes r = [6] := by
  have hsub : r.Sublist (l ++ e :: r) := (List.sublist_cons_self e r).trans (List.sublist_append_right l _)
  have hnodup : (txCodes r).Nodup := hl.order.nodup.sublist (hsub.filterMap _)
  have hclose : ∀ c ∈ txCodes r, c = 6 := fun c hc => by
    obtain ⟨x, hx, hcx⟩ := List.mem_filterMap.1 hc
    have hafter := (List.pairwise_cons.1 (List.pairwise_append.1 hl.failures).2.1).1 x hx he
    simpa [hcx] using hafter
  rw [List.eq_replicate_of_mem hclose, List.nodup_replicate] at hnodup
  rw [List.eq_replicate_of_mem hclose]
  interval_cases (txCodes r).length <;> simp

/-- Settles O53: the history is a beginning of a complete one, and each kind of these is orderly. -/
theorem transactionsAreInOrderAndOnce : Obligations.TransactionsAreInOrderAndOnce := by
  rintro s ⟨-, -, -, hi⟩
  have ho := orderly_of_history hi
  exact ⟨ho.order.exists_range, ho.order.nodup, fun l e r hev he => (hev ▸ ho).txCodes_after_failed he, ho.messages⟩

/-! ### The packet presented -/

theorem write_of_complete {a pr : Byte} {p b : HostInt} {l : List Event} {k : Packet} {n : Option Count}
    (h : Complete a pr p b l) (hk : .write k n ∈ l) : k = encodePacket a pr := by
  rcases h with rfl | ⟨d, c, e, m, hm, rfl⟩
  · simp at hk
  · cases hm <;> simp [configured] at hk <;> exact hk.1

/-- Settles O55: a history with a Write is a beginning of a complete one, whose Write is of the packet, and no transaction comes
twice. -/
theorem onePacketIsPresented : Obligations.OnePacketIsPresented := by
  rintro s k n ⟨-, -, -, hi⟩ hk
  constructor
  · rcases history_prefix hi with ⟨p, d, b, h⟩ | ⟨a, pr, p, b, l, ha, hpr, hl, h⟩
    · have hno := h.subset hk
      simp [configured] at hno
    · exact ⟨a, pr, ha, hpr, write_of_complete hl (h.subset hk)⟩
  · exact List.count_eq_one_of_mem (orderly_of_history hi).order.nodup (List.mem_filterMap.2 ⟨_, hk, rfl⟩)

/-! ### The release of the connection -/

/-- Before its CLOSE a session that was opened has no Close and no failed Open, and its Flush tells a write that was answered. -/
theorem attempt_marks {a pr : Byte} {p b : HostInt} {d : Option Dcb} {n : Option Count} {e : Err} {l : List Event}
    (h : Attempt a pr p b d n e l) :
    .close ∉ l ∧ (∀ q, .openPort q false ∉ l) ∧ (.flush ∈ l ↔ e = .none ∨ e = .shortWrite) := by
  cases h with
  | written d n =>
    have he : verdictErr n = .none ∨ verdictErr n = .shortWrite := by
      unfold verdictErr
      split <;> simp
    simp [configured, he]
  | _ => simp [configured]

/-- Settles O54: in HALT either Open failed and there is nothing else, or CLOSE came last after one of the paths to it. -/
theorem connectionIsReleasedOnEveryPath : Obligations.ConnectionIsReleasedOnEveryPath := by
  rintro s ⟨hst, -, -, hi⟩ hu
  refine ⟨handle_false_of_idle_or_halt hst (.inr hu), ?_⟩
  simp only [history, hu, upcHalt, BitVec.reduceToNat] at hi
  obtain ⟨a, pr, p, b, -, -, -, -, ⟨-, -, he, hev⟩ | ⟨m, hm, hev⟩⟩ := hi
  · simp [hev, he]
  · obtain ⟨hclose, hopen, hflush⟩ := attempt_marks hm
    simp [hev, hclose, hopen, hflush, List.count_eq_zero_of_not_mem]

end Sys2Proof.Machine

namespace Sys2Proof.Machine

open Sys2Proof.Safety

/-! ## A session with the reference device (41_transport.md rule R137, 60_exceptions.md rule R193) -/

/-- A run begins with a step and goes on from there. -/
theorem run_of_step {n : Nat} {s u t : State} (h : step s = .next u) (hrun : core.run n u = .next t) :
    core.run (n + 1) s = .next t := (run_succ_of_step (M := core) h n).trans hrun

/-- The device of a port after a change at that port. -/
theorem deviceAt_of_devModify {s t : State} {p : HostInt} {f : Device → Device} {v w : Device}
    (hd : t.devs = devModify p.toNat f s.devs) (hv : deviceAt s p = some v) (hw : f v = w) : deviceAt t p = some w := by
  rw [deviceAt_congr (s := modifyAt p f s) hd, deviceAt_modifyAt, if_pos rfl, hv, Option.map_some, hw]

/-- Nothing is sent from an empty queue. -/
theorem keepSent_nil (l : List Bool) : keepSent l [] = [] := by cases l <;> rfl

/-- What START leaves with the strobe up (rule R120). -/
def sampled (s : State) : State :=
  { s with
    cam := some (trunc8 s.inp.camIn), preset := some (trunc8 s.inp.presetIn), baud := some s.inp.baudIn,
    port := some s.inp.portIn, upc := upcEncode }

/-- What START and then ENCODE leave (rule R100). -/
def packed (s : State) : State :=
  { sampled s with
    pkt := pktFull (encodePacket (trunc8 s.inp.camIn) (trunc8 s.inp.presetIn)), pktValid := true, upc := upcOpen }

/-- A session, the sequencer's alone, that holds the port `p`: `c` is the code in UPC, `l` the answers to come, `v` the device,
`b` the baud rate, `k` the packet and `e` the error so far. -/
structure Holds (p b : HostInt) (k : Packet) (s : State) (c : BitVec 4) (l : List DevChoice) (v : Device) (e : Err) : Prop where
  upc : s.upc = c
  turns : s.turns = []
  answers : s.answers = l
  handle : s.handle = true
  link : s.link = some p
  device : deviceAt s p = some v
  baud : s.baud = some b
  pkt : s.pkt = pktFull k
  err : s.err = e

section
variable {p b : HostInt} {k : Packet} {s : State} {x : DevChoice} {l : List DevChoice} {v : Device} {e : Err}

/-- START, ENCODE and OPEN, with the strobe up and a willing device on a free port, are three steps at the head of a run. -/
theorem run_connects (hu : s.upc = upcIdle) (ht : s.turns = []) (hs : s.inp.start = true) (he : s.err = .none)
    (hl : s.link = none) (hv : deviceAt s s.inp.portIn = some v) (hf : v.heldByOther = false) (ha : s.answers = x :: l)
    (hx : x.ok = true) :
    ∃ u, (∀ n t, core.run n u = .next t → core.run (n + 3) s = .next t) ∧
      Holds s.inp.portIn s.inp.baudIn (encodePacket (trunc8 s.inp.camIn) (trunc8 s.inp.presetIn)) u upcCfgGet l v .none := by
  have hstart : step s = .next (sampled s) := (step_of_code ht .start rfl (by rw [hu]; rfl)).trans (if_pos hs)
  have hencode : step (sampled s) = .next (packed s) :=
    (step_of_code (s := sampled s) ht .encode rfl rfl).trans (exec_encode_eq rfl rfl)
  have hexec := (openFollowsTheAnswer (packed s) s.inp.portIn x l rfl ha).1 hx hl ⟨v, hv, hf⟩
  have hopen := (step_of_code (s := packed s) ht .openPort rfl rfl).trans hexec
  exact ⟨_, fun n t h => run_of_step hstart (run_of_step hencode (run_of_step hopen h)),
    rfl, ht, rfl, rfl, rfl, hv, rfl, rfl, he⟩

theorem Holds.getState (h : Holds p b k s upcCfgGet (x :: l) v e) (hx : x.ok = true) :
    ∃ t, step s = .next t ∧ Holds p b k t upcCfgSet l v e ∧ t.dcb = some v.dcb := by
  have hexec := (cfgGetFollowsTheAnswer s p v x l h.handle h.link h.device h.answers).1 hx
  exact ⟨_, (step_of_code h.turns .cfgGet rfl (by rw [h.upc]; rfl)).trans hexec,
    ⟨rfl, h.turns, rfl, h.handle, h.link, h.device, h.baud, h.pkt, h.err⟩, rfl⟩

theorem Holds.setState (h : Holds p b k s upcCfgSet (x :: l) v e) {d : Dcb} (hd : s.dcb = some d) (hx : x.ok = true) :
    ∃ t, step s = .next t ∧ Holds p b k t upcCfgTmo l { v with dcb := lineSettings b d } e := by
  have hexec := (cfgSetFollowsTheAnswer s p b d _ v x l h.handle h.link h.device h.answers hd h.baud rfl).1 hx
  exact ⟨_, (step_of_code h.turns .cfgSet rfl (by rw [h.upc]; rfl)).trans hexec,
    ⟨rfl, h.turns, rfl, h.handle, h.link, deviceAt_of_devModify rfl h.device rfl, h.baud, h.pkt, h.err⟩⟩

theorem Holds.setTimeouts (h : Holds p b k s upcCfgTmo (x :: l) v e) (hx : x.ok = true) :
    ∃ t, step s = .next t ∧ Holds p b k t upcSend l { v with tmo := tmoCfg } e := by
  have hexec := (cfgTmoFollowsTheAnswer s p v _ x l h.handle h.link h.device h.answers rfl).1 hx
  exact ⟨_, (step_of_code h.turns .cfgTmo rfl (by rw [h.upc]; rfl)).trans hexec,
    ⟨rfl, h.turns, rfl, h.handle, h.link, deviceAt_of_devModify rfl h.device rfl, h.baud, h.pkt, h.err⟩⟩

theorem Holds.write (h : Holds p b k s upcSend (x :: l) v e) (hx : x.ok = true) :
    ∃ t, step s = .next t ∧
      Holds p b k t upcVerify l { v with txq := v.txq ++ (packetBytes k).take x.count.toNat } e ∧
      t.bytesWritten = some x.count := by
  have hexec := (sendFollowsTheAnswer s p v k x l h.handle h.link h.device h.answers h.pkt).1 hx
  exact ⟨_, (step_of_code h.turns .send rfl (by rw [h.upc]; rfl)).trans hexec,
    ⟨rfl, h.turns, rfl, h.handle, h.link, deviceAt_of_devModify rfl h.device rfl, h.baud, h.pkt, h.err⟩, rfl⟩

theorem Holds.verify {n : Count} (h : Holds p b k s upcVerify l v .none) (hn : s.bytesWritten = some n) :
    ∃ t, step s = .next t ∧ Holds p b k t upcFinalize l v (verdictErr n) ∧ t.bytesWritten = some n := by
  have hstep := step_of_code h.turns .verify rfl (by rw [h.upc]; rfl)
  obtain ⟨hfull, hshort⟩ := verifyComparesWithSeven s n hn
  unfold verdictErr
  split
  · next hf =>
    exact ⟨_, hstep.trans (hfull k ((fullCount_iff n).1 hf) h.pkt),
      ⟨rfl, h.turns, h.answers, h.handle, h.link, h.device, h.baud, h.pkt, h.err⟩, hn⟩
  · next hf =>
    exact ⟨_, hstep.trans (hshort (mt (fullCount_iff n).2 hf)),
      ⟨rfl, h.turns, h.answers, h.handle, h.link, h.device, h.baud, h.pkt, rfl⟩, hn⟩

/-- FINALIZE with a device that drains. -/
theorem Holds.flush (h : Holds p b k s upcFinalize (x :: l) v e) (hx : x.drained = true) :
    ∃ t, step s = .next t ∧ Holds p b k t upcClose l { v with line := v.line ++ v.txq, txq := [] } e ∧
      t.bytesWritten = s.bytesWritten := by
  have hexec := finalizeFlushesAndGoesOn s x l h.answers
  simp only [modifyLinked_some h.link, modifyAt_devs, hx, if_true] at hexec
  exact ⟨_, (step_of_code h.turns .finalize rfl (by rw [h.upc]; rfl)).trans hexec,
    ⟨rfl, h.turns, rfl, h.handle, h.link, deviceAt_of_devModify rfl h.device rfl, h.baud, h.pkt, h.err⟩, rfl⟩

theorem Holds.close (h : Holds p b k s upcClose (x :: l) v e) :
    ∃ t, step s = .next t ∧ t.upc = upcHalt ∧ t.err = e ∧ t.exit = some (exitOf e) ∧ t.bytesWritten = s.bytesWritten ∧
      t.handle = false ∧ t.link = none ∧
      deviceAt t p = some { v with line := v.line ++ keepSent x.sent v.txq, txq := [] } := by
  have hexec := closeReleasesAndReports s x l h.answers
  simp only [modifyLinked_some h.link, modifyAt_devs, ← exitOf_eq_decide] at hexec
  exact ⟨_, (step_of_code h.turns .close rfl (by rw [h.upc]; rfl)).trans hexec, rfl, h.err, by rw [h.err], rfl, rfl, rfl,
    deviceAt_of_devModify rfl h.device rfl⟩

end

/-- A short write is no fatal error. -/
theorem exitOf_verdictErr (n : Count) : exitOf (verdictErr n) = false := by
  unfold verdictErr
  split <;> rfl

theorem verdictErr_eq (n : Count) : verdictErr n = if n.toNat = 7 then .none else .shortWrite := by
  unfold verdictErr
  simp only [fullCount_iff]

/-- Settles O57: the ten steps one after the other, each with the answer of the reference device. -/
theorem referenceSessionSendsThePacket : Obligations.ReferenceSessionSendsThePacket := by
  rintro s d n ⟨hst, -⟩ hu ht hs hl hd hf ha
  have he : s.err = .none := by simp_all [stageTable, upcIdle]
  obtain ⟨s₃, hrun, h₃⟩ := run_connects hu ht hs he hl hd hf ha rfl
  obtain ⟨s₄, hget, h₄, hdcb⟩ := h₃.getState rfl
  obtain ⟨s₅, hset, h₅⟩ := h₄.setState hdcb rfl
  obtain ⟨s₆, htmo, h₆⟩ := h₅.setTimeouts rfl
  obtain ⟨s₇, hsend, h₇, hn₇⟩ := h₆.write rfl
  obtain ⟨s₈, hverify, h₈, hn₈⟩ := h₇.verify hn₇
  obtain ⟨s₉, hflush, h₉, hn₉⟩ := h₈.flush rfl
  obtain ⟨t, hclose, hhalt, herr, hexit, hn, hhandle, hlink, hdev⟩ := h₉.close
  refine ⟨t, ?_, hhalt, by rw [herr, verdictErr_eq], by rw [hexit, exitOf_verdictErr], (hn.trans hn₉).trans hn₈, hhandle,
    hlink, ?_⟩
  · exact hrun 7 t (run_of_step hget (run_of_step hset (run_of_step htmo (run_of_step hsend (run_of_step hverify
      (run_of_step hflush (run_of_step hclose rfl)))))))
  · simp [hdev, hf, keepSent_nil]

end Sys2Proof.Machine

namespace Sys2Proof.Machine

open Sys2Proof.Safety

/-! ## The device wires between steps (42_interfaces.md rule R160) -/

/-- From `s` to `t` the device wires stay. -/
def SameWires (s t : State) : Prop := t.req = s.req ∧ t.rsp = s.rsp

theorem sameWires_raiseError (e : Err) (s : State) : SameWires s (raiseError e s) := by
  unfold raiseError
  split <;> exact ⟨rfl, rfl⟩

/-- A branch on the answer leaves the wires if both ends do. -/
theorem sameWires_of_ite {s t u v : State} {b : Bool} (h : (if b then .next u else .next v : Result) = .next t)
    (hu : SameWires s u) (hv : SameWires s v) : SameWires s t := by
  cases b <;> cases h <;> assumption

theorem wiresInv_iff (s : State) :
    wiresInv s = true ↔ s.rsp.valid = false ∧ (s.req.valid = true → transactionOf s.upc = some s.req.op) := by
  unfold wiresInv
  cases s.req.valid <;> simp

/-- Where UPC issues no transaction both valid wires are down, so the invariant holds wherever UPC goes with the wires as they are. -/
theorem wiresInv_of_sameWires {s t : State} (hw : wiresInv s = true) (hc : transactionOf s.upc = none) (h : SameWires s t) :
    wiresInv t = true := by
  obtain ⟨hrsp, hreq⟩ := (wiresInv_iff s).1 hw
  obtain ⟨hreq', hrsp'⟩ := h
  rw [wiresInv_iff, hreq', hrsp']
  exact ⟨hrsp, fun hv => absurd (hc.symm.trans (hreq hv)) nofun⟩

/-- A micro-operation with a transaction, its payload on the wires, either waits with its own request up or has both valid wires
down once the answer is bound. -/
theorem wiresInv_await_serve {s t : State} {f : DevChoice → State → State} (hf : IsAnswer f) {op : BitVec 3} {req : DevReq}
    {k : State → Result} (hc : transactionOf s.upc = some op) (h : await (serve op f { s with req := req }) k = .next t)
    (hk : ∀ v w, k v = .next w → SameWires v w) : wiresInv t = true := by
  rcases await_serve_cases hf op { s with req := req } k with ⟨-, hx⟩ | ⟨c, rest, -, hx⟩ <;> rw [hx] at h
  · cases h
    exact (wiresInv_iff _).2 ⟨rfl, fun _ => hc⟩
  · obtain ⟨hreq, hrsp⟩ := hk _ _ h
    rw [wiresInv_iff, hreq, hrsp]
    exact ⟨rfl, nofun⟩

/-- The shape of the three configuration calls and the write: a transaction, and then either registers are written or an error is
raised. -/
theorem wiresInv_of_transaction {s t : State} {f : DevChoice → State → State} (hf : IsAnswer f) {op : BitVec 3} {req : DevReq}
    {g : State → State} {e : Err} (hc : transactionOf s.upc = some op)
    (h : await (serve op f { s with req := req }) (fun u => if u.rsp.ok then .next (g u) else .next (raiseError e u)) = .next t)
    (hg : ∀ u, SameWires u (g u)) : wiresInv t = true :=
  wiresInv_await_serve hf hc h fun u _ hx => sameWires_of_ite hx (hg u) (sameWires_raiseError e u)

theorem execVerify_sameWires {s t : State} (h : execVerify s = .next t) : SameWires s t := by
  obtain ⟨n, -, h⟩ := need_next h
  split at h
  · obtain ⟨k, -, h⟩ := needPacket_next h
    cases h
    exact ⟨rfl, rfl⟩
  · cases h
    exact ⟨rfl, rfl⟩

theorem execEncode_sameWires {s t : State} (h : execEncode s = .next t) : SameWires s t := by
  obtain ⟨a, -, h⟩ := need_next h
  obtain ⟨p, -, h⟩ := need_next h
  rw [encodeWith_eq] at h
  cases h
  exact ⟨rfl, rfl⟩

/-- START, ENCODE, VERIFY and HALT leave the wires; the others each issue the transaction of their UPC code. -/
theorem exec_wiresInv {s t : State} {i : Instr} (hw : wiresInv s = true) (hi : fetch s = .ok i) (h : exec i s = .next t) :
    wiresInv t = true := by
  rcases fetch_cases hi with ⟨hu, rfl⟩ | ⟨hu, rfl⟩ | ⟨hu, rfl⟩ | ⟨hu, rfl⟩ | ⟨hu, rfl⟩ | ⟨hu, rfl⟩ | ⟨hu, rfl⟩ | ⟨hu, rfl⟩ |
    ⟨hu, rfl⟩ | ⟨hu, rfl⟩ | ⟨hu, rfl⟩ <;> have hc := congrArg transactionOf hu
  · exact wiresInv_of_sameWires hw hc (sameWires_of_ite h ⟨rfl, rfl⟩ ⟨rfl, rfl⟩)
  · exact wiresInv_of_sameWires hw hc (execEncode_sameWires h)
  · obtain ⟨p, -, h⟩ := need_next h
    exact wiresInv_await_serve isAnswer_open hc h fun _ _ hx => sameWires_of_ite hx ⟨rfl, rfl⟩ ⟨rfl, rfl⟩
  · rw [exec, execCfgGet] at h
    exact wiresInv_of_transaction isAnswer_getState hc h fun _ => ⟨rfl, rfl⟩
  · obtain ⟨d, -, h⟩ := need_next h
    obtain ⟨b, -, h⟩ := need_next h
    exact wiresInv_of_transaction isAnswer_setState hc h fun _ => ⟨rfl, rfl⟩
  · rw [exec, execCfgTmo] at h
    exact wiresInv_of_transaction isAnswer_setTimeouts hc h fun _ => ⟨rfl, rfl⟩
  · rw [exec, execSend] at h
    obtain ⟨k, -, h⟩ := needPacket_next h
    exact wiresInv_of_transaction isAnswer_write hc h fun _ => ⟨rfl, rfl⟩
  · exact wiresInv_of_sameWires hw hc (execVerify_sameWires h)
  · rw [exec, execFinalize] at h
    refine wiresInv_await_serve isAnswer_flush hc h fun v w hx => ?_
    cases hx
    exact ⟨rfl, rfl⟩
  · rw [exec, execClose] at h
    refine wiresInv_await_serve isAnswer_close hc h fun v w hx => ?_
    cases hx
    exact ⟨rfl, rfl⟩
  · cases h
    exact hw

/-- Settles O51: the sequencer's micro-operation raises its own request or leaves both valid wires down, a reset puts them down,
and no other agent touches them. -/
theorem everyStepKeepsTheWires : Obligations.EveryStepKeepsTheWires := by
  intro s t hw h
  rcases step_cases h with ⟨r, i, hf, hx⟩ | ⟨r, rfl, -⟩ | ⟨⟨-, -, -, -, -, -, -, hu, -⟩, -, -, hreq, hrsp, -⟩
  · exact exec_wiresInv (s := { s with turns := r }) hw hf hx
  · rfl
  · rwa [wiresInv, hreq, hrsp, hu]

end Sys2Proof.Machine

namespace Sys2Proof.Machine

open Sys2Proof.Safety

/-! ## The host's validation (42_interfaces.md rules R151, R152) -/

/-- The validation accepts four integers, with the defaults put in, the preset at least 1 and the baud rate positive. -/
theorem validate_eq_some_iff (a : HostArgs) (h : HostIn) :
    validate a = some h ↔
      ∃ c p b q, argOr defaultCam a.cam = some c ∧ argRequired a.preset = some p ∧ argOr defaultBaud a.baud = some b ∧
        argOr defaultPort a.port = some q ∧ 1 ≤ p ∧ 0 < b ∧
        h = ⟨true, BitVec.ofInt Config.inW c, BitVec.ofInt Config.inW p, BitVec.ofInt Config.inW b, BitVec.ofInt Config.inW q⟩ := by
  unfold validate
  split
  next c p b q hc hp hb hq => simp [hc, hp, hb, hq, and_assoc, eq_comm]
  next hnone =>
    simp only [reduceCtorEq, false_iff]
    rintro ⟨c, p, b, q, hc, hp, hb, hq, -⟩
    exact hnone c p b q hc hp hb hq

theorem sendPreset_started {a : HostArgs} {h : HostIn} (hv : validate a = some h) (s : State) :
    sendPreset a s = .started { s with inp := h } := by
  unfold sendPreset; rw [hv]

/-- Arguments that are not accepted leave the block untouched. -/
theorem sendPreset_rejected {a : HostArgs} (hv : ∀ h, validate a ≠ some h) (s : State) :
    sendPreset a s = .rejected .argumentError true := by
  unfold sendPreset; rw [Option.eq_none_iff_forall_ne_some.2 hv]; rfl

/-- Settles O58: the accepted arguments are those of the first clause, and each of the others denies one of their conditions. -/
theorem hostValidatesBeforeStart : Obligations.HostValidatesBeforeStart := by
  intro s p cam baud port
  refine ⟨fun hp c b q hc hb hq hpos => ?_, fun hp => ?_, fun b hb hneg => ?_, fun hm => ?_, ?_, ?_⟩
  · exact sendPreset_started ((validate_eq_some_iff ⟨cam, .value p, baud, port⟩ _).2 ⟨c, p, b, q, hc, rfl, hb, hq, hp, hpos, rfl⟩) s
  all_goals
    refine sendPreset_rejected (fun h hv => ?_) s
    obtain ⟨c, p', b', q, hc, hp', hb', hq, hle, hpos, -⟩ := (validate_eq_some_iff _ _).1 hv
  · cases hp'
    omega
  · cases hb.symm.trans hb'
    omega
  · rcases hm with rfl | rfl | rfl
    · cases hc
    · cases hb'
    · cases hq
  · cases hp'
  · cases hp'

end Sys2Proof.Machine

namespace Sys2Proof.Machine

open Sys2Proof.Safety

/-! ## What the host reads (42_interfaces.md rules R154, R155, R159) -/

theorem readOr_of_some {α : Type} {r : Option α} {v : α} (h : r = some v) (n : RegName) (f : α → HostVal) :
    readOr r n f = .ok (f v) := by
  subst h; rfl

theorem readOr_of_none {α : Type} {r : Option α} (h : r = none) (n : RegName) (f : α → HostVal) :
    readOr r n f = .error (.unwritten n) := by
  subst h; rfl

/-- DONE and EXIT before HALT. -/
theorem status_before_halt {s : State} (h : statusTable s = true) (hu : s.upc ≠ upcHalt) : s.done = false ∧ s.exit = none := by
  simpa [statusTable, hu, beq_false_of_ne hu] using h

/-- EXIT is 1 after every error but a short write (rule R155). -/
theorem exitOf_eq_decide_ne (e : Err) : exitOf e = decide (e ≠ .none ∧ e ≠ .shortWrite) := by
  cases e <;> rfl

/-- Byte by byte a built buffer is the data mux (40_encoder.md rule R108). -/
theorem pktGet_pktFull_encodePacket (a p : Byte) (i : Fin 7) : pktGet (pktFull (encodePacket a p)) i = some (lane a p i) := by
  fin_cases i <;> rfl

theorem pktGet_empty (i : Fin 7) : pktGet PktBuf.empty i = none := by
  fin_cases i <;> rfl

/-- The packet is built in full or not at all. -/
theorem built_or_nothingBuilt {s : State} (hr : ready s = true) : built s = true ∨ nothingBuilt s = true := by
  by_cases h : s.upc = 0 ∨ s.upc = 1
  · rcases h with hu | hu <;> simp [ready, hu] at hr <;> simp [hr]
  · rw [not_or] at h
    exact .inl (loaded_built_of_ready hr h.1 h.2).2

theorem pktValid_of_built {s : State} (hb : built s = true) : s.pktValid = true := by
  unfold built at hb
  split at hb <;> simp_all

/-- Up to SEND no count is written. -/
theorem bytesWritten_eq_none_of_ready {s : State} (hr : ready s = true) (hu : s.upc.toNat ≤ upcSend.toNat) :
    s.bytesWritten = none := by
  rw [show upcSend.toNat = 6 from rfl] at hu
  interval_cases hc : s.upc.toNat <;> simp only [ready, hc, Bool.and_eq_true, Option.isNone_iff_eq_none] at hr <;>
    exact hr.2

/-- The stages at which the write has answered Ok: from VERIFY on, but for the abort paths through CLOSE. -/
def CountStage (s : State) : Prop :=
  s.upc = upcVerify ∨ s.upc = upcFinalize ∨ ((s.upc = upcClose ∨ s.upc = upcHalt) ∧ (s.err = .none ∨ s.err = .shortWrite))

/-- VERIFY leaves one of the two errors that are not fatal. -/
theorem verdictErr_none_or_shortWrite (n : Count) : verdictErr n = .none ∨ verdictErr n = .shortWrite := by
  unfold verdictErr
  split <;> simp

theorem verdictErr_eq_none_iff (n : Count) : verdictErr n = .none ↔ n.toNat = 7 := by
  simp [verdictErr_eq]

/-- At CLOSE a session has a count with its verdict, or none with a fatal error. -/
theorem count_of_attempt {a pr : Byte} {p b : HostInt} {d : Option Dcb} {n : Option Count} {e : Err} {l : List Event}
    (h : Attempt a pr p b d n e l) :
    (∃ c, n = some c ∧ e = verdictErr c) ∨ (n = none ∧ e ≠ .none ∧ e ≠ .shortWrite) := by
  cases h with
  | written d n => exact .inl ⟨n, rfl, rfl⟩
  | _ => exact .inr ⟨rfl, nofun, nofun⟩

/-- BYTES_WRITTEN in CLOSE and HALT: a count with its verdict, or none and a fatal error. -/
theorem count_of_history {s : State} (hi : history s) (hu : s.upc = upcClose ∨ s.upc = upcHalt) :
    (∃ n, s.bytesWritten = some n ∧ s.err = verdictErr n) ∨ (s.bytesWritten = none ∧ s.err ≠ .none ∧ s.err ≠ .shortWrite) := by
  rcases hu with hu | hu <;> simp only [history, hu, upcClose, upcHalt, BitVec.reduceToNat] at hi
  · obtain ⟨a, pr, p, b, -, -, -, -, hm⟩ := hi
    exact count_of_attempt hm
  · obtain ⟨a, pr, p, b, -, -, -, -, ⟨-, hn, he, -⟩ | ⟨l, hm, -⟩⟩ := hi
    · exact .inr ⟨hn, by simp [he]⟩
    · exact count_of_attempt hm

/-- BYTES_WRITTEN from VERIFY on, and the error that VERIFY has left for it. -/
theorem bytesWritten_of_countStage {s : State} (hi : sessionInv s) (hs : CountStage s) :
    ∃ n, s.bytesWritten = some n ∧ (s.upc ≠ upcVerify → s.err = verdictErr n) := by
  obtain ⟨-, -, -, hi⟩ := hi
  rcases hs with hu | hu | ⟨hu, he⟩
  · simp only [history, hu, upcVerify, BitVec.reduceToNat] at hi
    obtain ⟨a, pr, p, d, b, n, -, -, -, -, -, hn, -⟩ := hi
    exact ⟨n, hn, fun h => absurd hu h⟩
  · simp only [history, hu, upcFinalize, BitVec.reduceToNat] at hi
    obtain ⟨a, pr, p, d, b, n, -, -, -, -, -, hn, hv, -⟩ := hi
    exact ⟨n, hn, fun _ => hv⟩
  · rcases count_of_history hi hu with ⟨n, hn, hv⟩ | ⟨-, hno, hshort⟩
    · exact ⟨n, hn, fun _ => hv⟩
    · exact absurd he (by simp [hno, hshort])

theorem bytesWritten_eq_none_of_not_countStage {s : State} (hi : sessionInv s) (hs : ¬CountStage s) : s.bytesWritten = none := by
  obtain ⟨hst, -, hr, hi⟩ := hi
  by_cases hu : s.upc = upcClose ∨ s.upc = upcHalt
  · rcases count_of_history hi hu with ⟨n, -, hv⟩ | ⟨hn, -⟩
    · exact absurd (.inr (.inr ⟨hu, hv ▸ verdictErr_none_or_shortWrite n⟩)) hs
    · exact hn
  · obtain ⟨i, hf⟩ := fetch_of_stageTable hst
    rcases fetch_cases hf with ⟨hc, -⟩ | ⟨hc, -⟩ | ⟨hc, -⟩ | ⟨hc, -⟩ | ⟨hc, -⟩ | ⟨hc, -⟩ | ⟨hc, -⟩ | ⟨hc, -⟩ | ⟨hc, -⟩ |
      ⟨hc, -⟩ | ⟨hc, -⟩
    iterate 7 exact bytesWritten_eq_none_of_ready hr (by rw [hc]; decide)
    · exact absurd (.inl hc) hs
    · exact absurd (.inr (.inl hc)) hs
    · exact absurd (.inl hc) hu
    · exact absurd (.inr hc) hu

theorem hostRead_pkt_of_built {s : State} {a p : Byte} (hb : built s = true) (ha : s.cam = some a) (hp : s.preset = some p)
    (i : Fin 7) : hostRead (.pkt i) s = .ok (.byte (lane a p i)) := by
  obtain ⟨k, hk⟩ := pktFull_of_built hb
  rw [packet_of_built hb ha hp hk] at hk
  exact readOr_of_some (by rw [hk, pktGet_pktFull_encodePacket]) _ _

theorem hostRead_pkt_of_nothingBuilt {s : State} (hn : nothingBuilt s = true) (i : Fin 7) :
    hostRead (.pkt i) s = .error (.unwritten (.pkt i)) := by
  simp only [nothingBuilt, Bool.and_eq_true, beq_iff_eq] at hn
  exact readOr_of_none (by rw [hn.2, pktGet_empty]) _ _

theorem hostRead_conn (s : State) : hostRead .conn s = .ok (.connCode (connCode s.conn)) := rfl

theorem hostRead_err (s : State) : hostRead .err s = .ok (.errCode (errCode s.err)) := rfl

/-- Settles O59: the codes by their tables, DONE and EXIT by the status table, BYTES_WRITTEN by the stage, the packet by what is
built. -/
theorem hostReadsTheResult : Obligations.HostReadsTheResult := by
  intro s hi
  obtain ⟨-, hstatus, hr, -⟩ := id hi
  refine ⟨?_, ?_, ?_, rfl, fun hu => ?_, fun hu => ?_, fun hs => ?_, fun hs => ?_, fun hv i a p ha hp => ?_, fun hv i => ?_⟩
  · rw [hostRead_conn]
    refine ⟨?_, ?_, ?_, ?_, ?_, ?_⟩ <;> intro h <;> rw [h] <;> rfl
  · rw [hostRead_err]
    refine ⟨?_, ?_, ?_, ?_, ?_, ?_⟩ <;> intro h <;> rw [h] <;> rfl
  · refine ⟨?_, ?_, ?_⟩ <;> intro m h <;> rw [diagKindPort, h] <;> rfl
  · obtain ⟨hdone, hexit⟩ := status_of_halt hstatus hu
    rw [← exitOf_eq_decide_ne]
    exact ⟨by rw [hostRead, hdone], readOr_of_some hexit _ _⟩
  · obtain ⟨hdone, hexit⟩ := status_before_halt hstatus hu
    exact ⟨by rw [hostRead, hdone], readOr_of_none hexit _ _⟩
  · obtain ⟨n, hn, he⟩ := bytesWritten_of_countStage hi hs
    exact ⟨n, hn, readOr_of_some hn _ _, fun hu => by rw [he hu, verdictErr_eq_none_iff]⟩
  · exact readOr_of_none (bytesWritten_eq_none_of_not_countStage hi hs) _ _
  · rcases built_or_nothingBuilt hr with hb | hn
    · exact hostRead_pkt_of_built hb ha hp i
    · simp [nothingBuilt, hv] at hn
  · rcases built_or_nothingBuilt hr with hb | hn
    · simp [pktValid_of_built hb] at hv
    · exact hostRead_pkt_of_nothingBuilt hn i

end Sys2Proof.Machine

namespace Sys2Proof.Machine

open Sys2Proof.Safety

/-! ## A device transaction run alone, with the answer at hand (60_exceptions.md rules R186 to R192; log 10) -/

/-- With an answer at hand a transaction leaves the request raised and the answer on the wires. -/
theorem next_serve_of_after {f : DevChoice → State → State} {op : BitVec 3} {s : State} {c : DevChoice} {rest : List DevChoice}
    {ok : Bool} {d : Dcb} {n : Count} {l : List (Nat × Device)} {h : Option HostInt} {e : Event} (ha : s.answers = c :: rest)
    (hf : f c (withAnswers rest (raiseReq op s)) = after (withAnswers rest (raiseReq op s)) ok d n l h e) :
    (.next (serve op f s) : Result) = .next (after (withAnswers rest (raiseReq op s)) ok d n l h e) := by
  rw [serve_cons ha, hf]

/-- A change at one port leaves the devices of the others. -/
theorem deviceAt_ne_of_devModify {s t : State} {p : HostInt} {f : Device → Device} (hd : t.devs = devModify p.toNat f s.devs)
    (q : HostInt) (hq : q ≠ p) : deviceAt t q = deviceAt s q := by
  rw [deviceAt_congr (s := modifyAt p f s) hd, deviceAt_modifyAt, if_neg hq]

/-- Settles O33: the port cannot be opened in the first clause, whatever the device is willing to do, and can in the second. -/
theorem devOpenAnswers : Obligations.DevOpenAnswers := by
  intro s c rest ha
  refine ⟨fun h => ?_, fun hc hl hd => ?_⟩
  · have hfail : (c.ok && canOpen (withAnswers rest (raiseReq 0 s))) = false := by
      rcases h with hc | hd
      · rw [hc, Bool.false_and]
      · rw [canOpen_eq_false (s := withAnswers rest (raiseReq 0 s)) hd, Bool.and_false]
    exact ⟨_, next_serve_of_after ha (answerOpen_after_fail hfail), sameRegisters_refl s, ⟨rfl, rfl, rfl⟩,
      rfl, rfl, rfl, rfl, rfl, rfl, rfl⟩
  · have hcan : canOpen (withAnswers rest (raiseReq 0 s)) = true := (canOpen_iff _).2 ⟨hl, hd⟩
    exact ⟨_, next_serve_of_after ha (answerOpen_after_ok hc hcan), sameRegisters_refl s, ⟨rfl, rfl, rfl⟩,
      rfl, rfl, rfl, rfl, rfl, rfl, rfl⟩

/-! ### GetState and SetState (rule R187) -/

/-- `d` is `old`, `new`, or a control block between the two, field by field (log 16). -/
def DcbBetween (old new d : Dcb) : Prop :=
  (d.baud = old.baud ∨ d.baud = new.baud) ∧ (d.byteSize = old.byteSize ∨ d.byteSize = new.byteSize) ∧
    (d.stopBits = old.stopBits ∨ d.stopBits = new.stopBits) ∧ (d.parity = old.parity ∨ d.parity = new.parity) ∧
    (d.other = old.other ∨ d.other = new.other)

theorem dcbBetween_new (old new : Dcb) : DcbBetween old new new := ⟨.inr rfl, .inr rfl, .inr rfl, .inr rfl, .inr rfl⟩

/-- What a failed SetState leaves is between the old control block and the requested one. -/
theorem dcbBetween_mixDcb (m : DcbMask) (old new : Dcb) : DcbBetween old new (mixDcb m old new) := by
  refine ⟨?_, ?_, ?_, ?_, ?_⟩ <;> exact (ite_eq_or_eq ..).symm

/-- Settles O34: GetState leaves the table of devices; after SetState the control block of the device is the requested one on
Ok, and between the old and the requested one on Fail. -/
theorem devStateIsReadAndReplaced : Obligations.DevStateIsReadAndReplaced := by
  intro s p d c rest hl hd ha
  constructor
  · have hv : linked (withAnswers rest (raiseReq 1 s)) = some d := (linked_some hl).trans hd
    cases hc : c.ok with
    | false =>
      exact ⟨_, next_serve_of_after ha (answerGetState_fail (.inl hc)), sameRegisters_refl s, ⟨rfl, rfl, rfl⟩,
        rfl, rfl, rfl, rfl, rfl, rfl, nofun, rfl⟩
    | true =>
      exact ⟨_, next_serve_of_after ha (answerGetState_ok hc hv), sameRegisters_refl s, ⟨rfl, rfl, rfl⟩,
        rfl, rfl, rfl, rfl, rfl, rfl, fun _ => rfl, rfl⟩
  · cases hc : c.ok with
    | false =>
      have hx := answerSetState_after_fail (s := withAnswers rest (raiseReq 2 s)) hl hc
      exact ⟨_, _, next_serve_of_after ha hx, sameRegisters_refl s, ⟨rfl, rfl, rfl⟩, rfl, rfl, rfl, rfl, rfl, rfl,
        deviceAt_of_devModify rfl hd rfl, deviceAt_ne_of_devModify rfl, nofun, dcbBetween_mixDcb _ _ _⟩
    | true =>
      have hx := answerSetState_after_ok (s := withAnswers rest (raiseReq 2 s)) hl hd hc
      exact ⟨_, _, next_serve_of_after ha hx, sameRegisters_refl s, ⟨rfl, rfl, rfl⟩, rfl, rfl, rfl, rfl, rfl, rfl,
        deviceAt_of_devModify rfl hd rfl, deviceAt_ne_of_devModify rfl, fun _ => rfl, dcbBetween_new _ _⟩

/-- Settles O35: on Ok and on Fail SetTimeouts changes the timeout settings of the device of the connection only. -/
theorem devTimeoutsAreReplaced : Obligations.DevTimeoutsAreReplaced := by
  intro s p d c rest hl hd ha
  cases hc : c.ok with
  | false =>
    have hx := answerSetTimeouts_after_fail (s := withAnswers rest (raiseReq 3 s)) hl hc
    exact ⟨_, _, next_serve_of_after ha hx, sameRegisters_refl s, ⟨rfl, rfl, rfl⟩, rfl, rfl, rfl, rfl, rfl, rfl,
      deviceAt_of_devModify rfl hd rfl, deviceAt_ne_of_devModify rfl, nofun⟩
  | true =>
    have hx := answerSetTimeouts_after_ok (s := withAnswers rest (raiseReq 3 s)) hl hd hc
    exact ⟨_, _, next_serve_of_after ha hx, sameRegisters_refl s, ⟨rfl, rfl, rfl⟩, rfl, rfl, rfl, rfl, rfl, rfl,
      deviceAt_of_devModify rfl hd rfl, deviceAt_ne_of_devModify rfl, fun _ => rfl⟩

/-- A packet has seven bytes: a larger count takes no more than all of them (rule R56, U7). -/
theorem packetBytes_take_min (k : Packet) (n : Nat) : (packetBytes k).take (min n 7) = (packetBytes k).take n :=
  (List.take_eq_take_min (l := packetBytes k)).symm

/-- Settles O36: the answer's count on Ok, capped at the packet's length, and the device's own number of bytes on Fail. -/
theorem devWriteQueuesAPrefix : Obligations.DevWriteQueuesAPrefix := by
  intro s p d k c rest hl hd ha hk
  cases hc : c.ok with
  | false =>
    have hx := answerWrite_after_fail (s := withAnswers rest (raiseReq 4 s)) hl hk hc
    exact ⟨_, c.taken.val, next_serve_of_after ha hx, sameRegisters_refl s, ⟨rfl, rfl, rfl⟩, rfl, rfl, rfl, rfl, rfl,
      rfl, deviceAt_of_devModify rfl hd rfl, deviceAt_ne_of_devModify rfl, Fin.is_le _, nofun⟩
  | true =>
    have hx := answerWrite_after_ok (s := withAnswers rest (raiseReq 4 s)) hl hk hd hc
    rw [← packetBytes_take_min] at hx
    exact ⟨_, min c.count.toNat 7, next_serve_of_after ha hx, sameRegisters_refl s, ⟨rfl, rfl, rfl⟩, rfl, rfl, rfl,
      rfl, rfl, rfl, deviceAt_of_devModify rfl hd rfl, deviceAt_ne_of_devModify rfl, min_le_right _ _, fun _ => ⟨rfl, rfl⟩⟩

/-! ### Flush and Close (rules R191, R192) -/

theorem modifyLinked_devs_of_some {s : State} {p : HostInt} (hl : s.link = some p) (f : Device → Device) :
    (modifyLinked f s).devs = devModify p.toNat f s.devs := by
  rw [modifyLinked_some hl, modifyAt_devs]

/-- Settles O37: drained or not is the device's choice, and the answer is Done either way. -/
theorem devFlushDrainsOrSaysSo : Obligations.DevFlushDrainsOrSaysSo := by
  intro s p d c rest hl hd ha
  have hdevs := modifyLinked_devs_of_some (s := withAnswers rest (raiseReq 5 s)) hl
    (fun x => if c.drained then { x with line := x.line ++ x.txq, txq := [] } else x)
  exact ⟨_, next_serve_of_after ha (answerFlush_eq_after c _), sameRegisters_refl s, ⟨rfl, rfl, rfl⟩, rfl, rfl, rfl, rfl,
    rfl, deviceAt_ne_of_devModify hdevs, fun hc => deviceAt_of_devModify hdevs hd (by rw [if_pos hc]),
    fun hc => deviceAt_of_devModify hdevs hd (by rw [hc]; rfl)⟩

/-- What a Close sends is taken from the queue, in its order. -/
theorem keepSent_sublist (m : List Bool) (l : List Byte) : (keepSent m l).Sublist l := by
  induction m generalizing l with
  | nil => exact List.nil_sublist l
  | cons b m ih =>
    cases l with
    | nil => exact List.nil_sublist []
    | cons x l =>
      cases b with
      | false => exact (ih l).cons x
      | true => exact (ih l).cons_cons x

/-- A mask that lets every byte through sends the whole queue. -/
theorem keepSent_all (l : List Byte) : keepSent (l.map fun _ => true) l = l := by
  induction l with
  | nil => rfl
  | cons x l ih => exact congrArg (x :: ·) ih

/-- Settles O38: the bytes sent are those the device's mask lets through. -/
theorem devCloseReleasesTheHold : Obligations.DevCloseReleasesTheHold := by
  intro s p d c rest hl hd ha
  have hdevs := modifyLinked_devs_of_some (s := withAnswers rest (raiseReq 6 s)) hl
    (fun x => { x with line := x.line ++ keepSent c.sent x.txq, txq := [] })
  exact ⟨_, keepSent c.sent d.txq, next_serve_of_after ha (answerClose_eq_after c _), sameRegisters_refl s,
    ⟨rfl, rfl, rfl⟩, rfl, rfl, rfl, rfl, rfl, deviceAt_ne_of_devModify hdevs, deviceAt_of_devModify hdevs hd rfl,
    keepSent_sublist _ _, fun h => by rw [h, keepSent_all], fun h => by rw [h]; rfl⟩

/-! ## The drain (rule R190) -/

theorem drainByte_cons {d : Device} {b : Byte} {q : List Byte} (h : d.txq = b :: q) :
    drainByte d = { d with txq := q, line := d.line ++ [b] } := by
  unfold drainByte; rw [h]

theorem drainByte_nil {d : Device} (h : d.txq = []) : drainByte d = d := by
  unfold drainByte; rw [h]

/-- The drain loses, reorders and repeats no byte (rule R190). -/
theorem taken_drainByte (d : Device) : taken (drainByte d) = taken d := by
  cases h : d.txq with
  | nil => rw [drainByte_nil h]
  | cons b q => rw [drainByte_cons h, taken, taken, h, List.append_assoc, List.singleton_append]

/-- Settles O40: the turn is `drainByte` at its port. -/
theorem drainMovesTheHeadByte : Obligations.DrainMovesTheHeadByte := by
  intro s p d rest ht hd
  refine ⟨_, drainByte d, step_of_environment_turn ht (by simp), deviceAt_of_devModify rfl hd rfl, deviceAt_ne_of_devModify rfl,
    fun b q h => ?_, drainByte_nil, taken_drainByte d, sameRegisters_refl s, rfl, rfl, rfl, rfl⟩
  rw [drainByte_cons h]
  exact ⟨rfl, rfl⟩

/-! ## The abort and its CLOSE (rules R176, R177) -/

/-- Settles O30: the abort goes to CLOSE because the connection is held, and CLOSE reports the error it saved. -/
theorem abortRecordsClosesAndReports : Obligations.AbortRecordsClosesAndReports := by
  intro s e p c rest he hh _ ha
  have hfatal : isFatal e = true := by rcases he with rfl | rfl <;> rfl
  have hraise := (raiseClosesOrHalts s e hfatal).1 hh
  refine ⟨hraise, ?_⟩
  rw [hraise]
  refine ⟨_, closeReleasesAndReports _ c rest ha, rfl, rfl, rfl, ?_, rfl, rfl, ?_, rfl, rfl, rfl, rfl, rfl, rfl, rfl, rfl, rfl⟩
  · rw [← exitOf_eq_decide, exitOf_of_fatal hfatal]
  · exact List.append_assoc ..

/-! ## A request without an answer (rule R185, U11; logs 4, 5) -/

/-- Without an answer at hand a micro-operation waits with its request raised. -/
theorem await_serve_of_nil {f : DevChoice → State → State} {op : BitVec 3} {s : State} (ha : s.answers = [])
    (k : State → Result) : await (serve op f s) k = .next (raiseReq op s) := by
  rw [serve_nil ha]
  exact await_waits rfl

/-- Two reads of registers that hold the same value go on alike if their continuations do on that value. -/
theorem need_eq_of_some {α : Type} {r q : Option α} {v : α} {n : RegName} {f g : α → Result} (hr : r = some v)
    (hq : q = some v) (h : f v = g v) : need r n f = need q n g := by
  rw [need_of_some hr, need_of_some hq, h]

theorem needPacket_eq_of_full {b d : PktBuf} {k : Packet} {f g : Packet → Result} (hb : b = pktFull k) (hd : d = pktFull k)
    (h : f k = g k) : needPacket b f = needPacket d g := by
  rw [needPacket_of_full hb, needPacket_of_full hd, h]

section
variable {s : State} (ha : s.answers = [])
include ha

theorem execOpenPort_waits {p : HostInt} (hp : s.port = some p) : execOpenPort s = .next (raiseReq 0 (putPort p s)) := by
  rw [execOpenPort, need_of_some hp]
  exact await_serve_of_nil (s := putPort p s) ha _

theorem execCfgGet_waits : execCfgGet s = .next (raiseReq 1 s) := await_serve_of_nil ha _

theorem execCfgSet_waits {d : Dcb} {b : HostInt} (hd : s.dcb = some d) (hb : s.baud = some b) :
    execCfgSet s = .next (raiseReq 2 (putDcb (lineSettings b d) s)) := by
  rw [execCfgSet, need_of_some hd, need_of_some hb]
  exact await_serve_of_nil (s := putDcb (lineSettings b d) s) ha _

theorem execCfgTmo_waits : execCfgTmo s = .next (raiseReq 3 (putTmo tmoCfg s)) :=
  await_serve_of_nil (s := putTmo tmoCfg s) ha _

theorem execSend_waits {k : Packet} (hk : s.pkt = pktFull k) : execSend s = .next (raiseReq 4 (putData k s)) := by
  rw [execSend, needPacket_of_full hk]
  exact await_serve_of_nil (s := putData k s) ha _

theorem execFinalize_waits : execFinalize s = .next (raiseReq 5 s) := await_serve_of_nil ha _

theorem execClose_waits : execClose s = .next (raiseReq 6 s) := await_serve_of_nil ha _

/-- Running again, a waiting micro-operation raises the request that stands already: with the answer come it does what it does
with the answer there at once. -/
theorem exec_of_wait {i : Instr} {w : State} (c : DevChoice)
    (hi : i ∈ [.openPort, .cfgGet, .cfgSet, .cfgTmo, .send, .finalize, .close]) (h : exec i s = .next w) :
    exec i { w with answers := [c] } = exec i { s with answers := [c] } := by
  simp only [List.mem_cons, List.not_mem_nil, or_false] at hi
  rcases hi with rfl | rfl | rfl | rfl | rfl | rfl | rfl
  · obtain ⟨p, hp, -⟩ := need_next h
    cases (execOpenPort_waits ha hp).symm.trans h
    exact need_eq_of_some hp hp rfl
  · cases (execCfgGet_waits ha).symm.trans h
    rfl
  · obtain ⟨d, hd, h'⟩ := need_next h
    obtain ⟨b, hb, -⟩ := need_next h'
    cases (execCfgSet_waits ha hd hb).symm.trans h
    exact need_eq_of_some hd hd (need_eq_of_some hb hb rfl)
  · cases (execCfgTmo_waits ha).symm.trans h
    rfl
  · rw [exec] at h
    obtain ⟨k, hk, -⟩ := needPacket_next h
    cases (execSend_waits ha hk).symm.trans h
    rw [exec, exec, execSend, execSend]
    exact needPacket_eq_of_full hk hk rfl
  · cases (execFinalize_waits ha).symm.trans h
    rfl
  · cases (execClose_waits ha).symm.trans h
    rfl

end

/-- Settles O31: the answer turn lists the answer, and each micro-operation waits by its own lemma. -/
theorem unansweredRequestIsHeld : Obligations.UnansweredRequestIsHeld :=
  ⟨fun _ _ _ ht => step_of_environment_turn ht nofun, fun _ ha =>
    ⟨fun _ _ c hi h => exec_of_wait ha c hi h, fun _ hp => execOpenPort_waits ha hp, execCfgGet_waits ha,
      fun _ _ hd hb => execCfgSet_waits ha hd hb, execCfgTmo_waits ha, fun _ hk => execSend_waits ha hk,
      execFinalize_waits ha, execClose_waits ha⟩⟩

end Sys2Proof.Machine

namespace Sys2Proof.Machine

/-! ## A reset while a session runs (70_reset_and_hazards.md rule R202, 93_implementation_defined.md U12) -/

/-- R202's two states are the only ones in which the model resets. -/
theorem resetAllowed_iff {s : State} : resetAllowed s = true ↔ s.upc = upcIdle ∨ s.upc = upcHalt := by
  simp [resetAllowed]

/-- The reset turn outside IDLE and HALT; `step_of_reset_turn` is the same turn inside them. -/
theorem step_of_reset_turn_refused {s : State} {rest : List Turn} (ht : s.turns = .reset :: rest)
    (hu : ¬ (s.upc = upcIdle ∨ s.upc = upcHalt)) : step s = .refused .resetDuringSession := by
  have hno : ¬ resetAllowed { s with turns := rest } = true := mt resetAllowed_iff.mp hu
  rw [step_of_environment_turn ht (by simp), environmentMove, if_neg hno]

/-- Settles O3: with UPC neither IDLE nor HALT the guard of R202 fails, so the reset turn takes its refusing branch. -/
theorem resetDuringASessionIsRefused : Obligations.ResetDuringASessionIsRefused :=
  fun _ _ ht hidle hhalt => step_of_reset_turn_refused ht (not_or.mpr ⟨hidle, hhalt⟩)

end Sys2Proof.Machine
